-- ==== Sys2Proof/Word.lean ====
section
/-! DEFINITION. The byte and the pixel, the two value types of the QOI decoder core (rules R6, R7). -/

namespace Sys2Proof

/-- A byte, 0..255, bit 7 the most significant (R6). -/
abbrev Byte := BitVec 8

/-- A pixel: four bytes r, g, b, a, equal when all four are equal (R7). -/
structure Pixel where
  r : Byte
  g : Byte
  b : Byte
  a : Byte
  deriving DecidableEq, Repr, Inhabited

end Sys2Proof
end

