-- ==== Sys2Proof/Config.lean ====
section
/-! DEFINITION. The parameters of rule R5 (those fixed by the document and those chosen by the spec), and the free values
that stand for what the spec calls unspecified (R15, R19, R21, R26, R116, R117; table V1 to V4). -/

namespace Sys2Proof

/-- R5 `MAGIC`: the characters q, o, i, f as the bytes 71 6F 69 66, read as one big-endian word (the byte values are the
spec's GK1; parameter V10). -/
def Config.magic : BitVec 32 := 0x716F6966#32

/-- R5 `PREV_INIT`. -/
def Config.prevInit : Pixel := ⟨0#8, 0#8, 0#8, 255#8⟩

/-- R5 `CACHE_INIT`. -/
def Config.cacheInit : Pixel := ⟨0#8, 0#8, 0#8, 0#8⟩

/-- R5 `HASH_COEF` for r, g, b, a. -/
def Config.hashR : Nat := 3
def Config.hashG : Nat := 5
def Config.hashB : Nat := 7
def Config.hashA : Nat := 11

/-- R5 `DIFF_BIAS`. -/
def Config.diffBias : Int := 2

/-- R5 `LUMA_G_BIAS`. -/
def Config.lumaGBias : Int := 32

/-- R5 `LUMA_RB_BIAS`. -/
def Config.lumaRBBias : Int := 8

/-- R5 `RUN_BIAS`. -/
def Config.runBias : Nat := 1

/-- R5 `POS_W`, `CURSOR_W` (decision D12), `2^64`: a position or a cursor that reaches this number is outside the spec, and the
model refuses it (V7). -/
def Config.counterLimit : Nat := 18446744073709551616

/-- R5 `STRICT_PIXEL_COUNT` (decision D9, parameter V9): false on this hardware. -/
def Config.strictPixelCount : Bool := false

/-- What a reset leaves unspecified, one name for each register (R26): `cache` by slot, `lit` and `hbuf` by byte. -/
inductive FreeItem where
  | prev
  | cache (slot : Nat)
  | magic
  | width
  | height
  | channels
  | colorspace
  | errPos
  | b0
  | lit (i : Nat)
  | hbuf (i : Nat)
  | cnt
  | pend
  | rem
  | opPos
  deriving DecidableEq, Repr

/-- The FREE VALUE of a register that a reset leaves unspecified, by the number of the reset that drew it.
It has no body: nothing can be proved of it. -/
opaque Config.freeValue : Nat → FreeItem → BitVec 64

end Sys2Proof
end

