-- ==== Sys2Proof/Syntax.lean ====
section
/-! DEFINITION. The instructions: HEADER and the six operators, one constructor for each row of spec/opcode_table.json,
with the fields of its encoding (R46 to R52). -/

namespace Sys2Proof

/-- The six operator kinds (R65). -/
inductive Tag where
  | rgb
  | rgba
  | index
  | diff
  | luma
  | run
  deriving DecidableEq, Repr

/-- One HEADER record or one whole operator, with the fields as they stand in the encoding: biased fields are not yet
unbiased (R53 does that). -/
inductive Instr where
  /-- HEADER (R61), the 14-byte record at offset 0. -/
  | header (magic width height : BitVec 32) (channels colorspace : Byte)
  /-- RGB (R69), three literals. -/
  | rgb (r g b : Byte)
  /-- RGBA (R70), four literals. -/
  | rgba (r g b a : Byte)
  /-- INDEX (R71), the cache slot. -/
  | index (k : BitVec 6)
  /-- DIFF (R72), three deltas with bias 2. -/
  | diff (fr fg fb : BitVec 2)
  /-- LUMA (R73), dg with bias 32 and dr - dg, db - dg with bias 8. -/
  | luma (fg : BitVec 6) (frg fbg : BitVec 4)
  /-- RUN (R77), the repeat count less one, 0..61. -/
  | run (n : BitVec 6)
  deriving DecidableEq, Repr

/-- Where a record can stand: the HEADER record at the start of the stream, an operator anywhere after it (R45).
The same bytes mean different things at the two places. -/
inductive Position where
  | header
  | operator
  deriving DecidableEq, Repr

/-- The place at which an instruction stands. -/
def Instr.position : Instr → Position
  | .header _ _ _ _ _ => .header
  | .rgb _ _ _ => .operator
  | .rgba _ _ _ _ => .operator
  | .index _ => .operator
  | .diff _ _ _ => .operator
  | .luma _ _ _ => .operator
  | .run _ => .operator

/-- Length in bytes (R5, R47). -/
def Instr.length : Instr → Nat
  | .header _ _ _ _ _ => 14
  | .rgb _ _ _ => 4
  | .rgba _ _ _ _ => 5
  | .index _ => 1
  | .diff _ _ _ => 1
  | .luma _ _ _ => 2
  | .run _ => 1

end Sys2Proof
end

