-- ==== Sys2Proof/WellFormed.lean ====
section
/-! DEFINITION. Which terms of Instr stand for bytes a stream can hold: HEADER carries the magic (R62), and RUN has a field
of 0..61, since the bytes of the fields 62 and 63 are RGB and RGBA (R56). Every other field value is legal (R56). -/

namespace Sys2Proof

/-- R56, R62: the two checks. -/
def Instr.wellFormed : Instr → Bool
  | .header magic _ _ _ _ => decide (magic = Config.magic)
  | .rgb _ _ _ => true
  | .rgba _ _ _ _ => true
  | .index _ => true
  | .diff _ _ _ => true
  | .luma _ _ _ => true
  | .run n => decide (n.toNat ≤ 61)

end Sys2Proof
end

