-- ==== Sys2Proof/Decode.lean ====
section
/-! DEFINITION. The tag classifier (R65), the decoder of a record from the bytes at its place (R45 to R52), the encoder
written from the same tables, and the reading of a word as spec/opcode_table.json numbers its bits. -/

namespace Sys2Proof

/-- `b0[7:6]`, "the top 2 bits". -/
def topBits (b0 : Byte) : BitVec 2 := b0.extractLsb' 6 2

/-- R65 `Classify`: the tests in the document's priority order, with the unreachable last line kept (R67). -/
def classify (b0 : Byte) : Option Tag :=
  if b0 = 0xFE#8 then some .rgb
  else if b0 = 0xFF#8 then some .rgba
  else if topBits b0 = 0b00#2 then some .index
  else if topBits b0 = 0b01#2 then some .diff
  else if topBits b0 = 0b10#2 then some .luma
  else if topBits b0 = 0b11#2 then some .run
  else none

/-- One row of the tag table: `b0` matches when `(b0 AND mask) == value` (R55). -/
structure TagRow where
  tag : Tag
  value : Byte
  mask : Byte
  deriving DecidableEq, Repr

/-- R55: the (value, mask) pairs in priority order. -/
def tagTable : List TagRow :=
  [⟨.rgb, 0xFE#8, 0xFF#8⟩, ⟨.rgba, 0xFF#8, 0xFF#8⟩, ⟨.index, 0x00#8, 0xC0#8⟩,
   ⟨.diff, 0x40#8, 0xC0#8⟩, ⟨.luma, 0x80#8, 0xC0#8⟩, ⟨.run, 0xC0#8, 0xC0#8⟩]

/-- R55: the first matching row. -/
def classifyByTable (b0 : Byte) : Option Tag :=
  (tagTable.find? fun row => b0 &&& row.mask == row.value).map TagRow.tag

/-- Bytes of an operator after its tag byte (R47). -/
def Tag.operandBytes : Tag → Nat
  | .rgb => 3
  | .rgba => 4
  | .index => 0
  | .diff => 0
  | .luma => 1
  | .run => 0

/-- Why bytes are no instruction. -/
inductive Reject where
  /-- No byte is left at an operator boundary: the normal end (R87). -/
  | exhausted
  /-- Fewer than four header bytes, or a good magic and fewer than 14 (R63). -/
  | headerEnd
  /-- Four header bytes that are not `MAGIC` (R62). -/
  | badMagic
  /-- The stream ends inside the operator whose tag byte is `b0` (R103). -/
  | operatorEnd (b0 : Byte)
  /-- A tag byte that matches no tag (R102, unreachable). -/
  | noTag (b0 : Byte)
  deriving DecidableEq, Repr

/-- The decoder's answer: an instruction and the bytes after it, or a rejection by name. -/
inductive Decoded where
  | instr (i : Instr) (rest : List Byte)
  | rejected (r : Reject)
  deriving DecidableEq, Repr

/-- Four bytes as a big-endian word, the first the most significant (R35). -/
def beWord (x0 x1 x2 x3 : Byte) : BitVec 32 := x0 ++ x1 ++ x2 ++ x3

/-- Byte `i` of a word, byte 0 the most significant (R35). -/
def beByte (w : BitVec 32) (i : Nat) : Byte := w.extractLsb' (8 * (3 - i)) 8

/-- A word as four big-endian bytes (R35). -/
def beBytes (w : BitVec 32) : List Byte := [beByte w 0, beByte w 1, beByte w 2, beByte w 3]

/-- R46, R61 to R63: the header record. The magic is judged as soon as four bytes are there. -/
def decodeHeader (bs : List Byte) : Decoded :=
  match bs with
  | m0 :: m1 :: m2 :: m3 :: more =>
    if beWord m0 m1 m2 m3 = Config.magic then
      match more with
      | w0 :: w1 :: w2 :: w3 :: h0 :: h1 :: h2 :: h3 :: c :: cs :: rest =>
        .instr (.header (beWord m0 m1 m2 m3) (beWord w0 w1 w2 w3) (beWord h0 h1 h2 h3) c cs) rest
      | _ => .rejected .headerEnd
    else .rejected .badMagic
  | _ => .rejected .headerEnd

/-- R47 to R52: an operator, its tag classified first and its operand bytes taken after it. -/
def decodeOperator (bs : List Byte) : Decoded :=
  match bs with
  | [] => .rejected .exhausted
  | b0 :: more =>
    match classify b0 with
    | some .rgb =>
      match more with
      | r :: g :: b :: rest => .instr (.rgb r g b) rest
      | _ => .rejected (.operatorEnd b0)
    | some .rgba =>
      match more with
      | r :: g :: b :: a :: rest => .instr (.rgba r g b a) rest
      | _ => .rejected (.operatorEnd b0)
    | some .index => .instr (.index (b0.extractLsb' 0 6)) more
    | some .diff => .instr (.diff (b0.extractLsb' 4 2) (b0.extractLsb' 2 2) (b0.extractLsb' 0 2)) more
    | some .luma =>
      match more with
      | b1 :: rest => .instr (.luma (b0.extractLsb' 0 6) (b1.extractLsb' 4 4) (b1.extractLsb' 0 4)) rest
      | _ => .rejected (.operatorEnd b0)
    | some .run => .instr (.run (b0.extractLsb' 0 6)) more
    | none => .rejected (.noTag b0)

/-- The record that stands at a place (R45): the role of a byte is fixed by position alone (R43). -/
def decode (p : Position) (bs : List Byte) : Decoded :=
  match p with
  | .header => decodeHeader bs
  | .operator => decodeOperator bs

/-- The tag byte of an INDEX (R48). -/
def indexTag (k : BitVec 6) : Byte := 0b00#2 ++ k

/-- The tag byte of a DIFF (R49). -/
def diffTag (fr fg fb : BitVec 2) : Byte := 0b01#2 ++ fr ++ fg ++ fb

/-- The tag byte of a LUMA (R50). -/
def lumaTag (fg : BitVec 6) : Byte := 0b10#2 ++ fg

/-- The second byte of a LUMA (R50). -/
def lumaByte (frg fbg : BitVec 4) : Byte := frg ++ fbg

/-- The tag byte of a RUN (R48). -/
def runTag (n : BitVec 6) : Byte := 0b11#2 ++ n

/-- The bytes of an instruction in stream order (R46 to R52). -/
def encode : Instr → List Byte
  | .header m w h c cs => beBytes m ++ beBytes w ++ beBytes h ++ [c, cs]
  | .rgb r g b => [0xFE#8, r, g, b]
  | .rgba r g b a => [0xFF#8, r, g, b, a]
  | .index k => [indexTag k]
  | .diff fr fg fb => [diffTag fr fg fb]
  | .luma fg frg fbg => [lumaTag fg, lumaByte frg fbg]
  | .run n => [runTag n]

/-- The magic with its bytes in the other order: what four header bytes give when byte 0 is numbered lowest. -/
def magicBytesLowFirst : Nat := 0x66696F71

/-- Whether a word of the opcode table is its HEADER row: no operator has more than 40 bits, and the row's 32 fixed bits
are the magic, numbered as one big-endian word (the row's `match_applies_to`) or byte by byte. -/
def isHeaderWord (nbits w : Nat) : Bool :=
  decide (40 < nbits) ||
    (decide (32 ≤ nbits) && (w % 2 ^ 32 == Config.magic.toNat || w % 2 ^ 32 == magicBytesLowFirst))

/-- Byte `i` of a word whose byte 0 is numbered lowest. -/
def byteOfWord (w i : Nat) : Byte := BitVec.ofNat 8 (w >>> (8 * i))

/-- The stream bytes of a table word of the HEADER row: 14 bytes. Numbered as the table numbers it, the magic (and each
32-bit field after it) is one big-endian word; numbered byte by byte, byte 0 stands lowest. -/
def headerBytesOfWord (nbits w : Nat) : List Byte :=
  let v := w % 2 ^ nbits
  if v % 2 ^ 32 = Config.magic.toNat then
    beBytes (BitVec.ofNat 32 v) ++ beBytes (BitVec.ofNat 32 (v >>> 32)) ++ beBytes (BitVec.ofNat 32 (v >>> 64)) ++
      [byteOfWord v 12, byteOfWord v 13]
  else (List.range 14).map (byteOfWord v)

/-- The stream bytes of a table word of an operator's row: five bytes, the longest operator, zero above `nbits`. -/
def operatorBytesOfWord (nbits w : Nat) : List Byte := (List.range 5).map (byteOfWord (w % 2 ^ nbits))

/-- The instruction the decoder reads from a word numbered as spec/opcode_table.json numbers it; none where it rejects. -/
def decodeTableWord (nbits w : Nat) : Option Instr :=
  let d := if isHeaderWord nbits w then decode .header (headerBytesOfWord nbits w)
    else decode .operator (operatorBytesOfWord nbits w)
  match d with
  | .instr i _ => some i
  | .rejected _ => none

end Sys2Proof
end

