-- ==== Sys2Proof/Machine/State.lean ====
section
/-! DEFINITION. Everything the spec gives the machine (rule R10), the hidden registers of the reference machine (R21), the
two spaces that belong to the environment (STREAM and OUT, R28), and what the model adds to them; the reasons a run can
stop; the state after reset. -/

namespace Sys2Proof.Machine

/-- R92: the sub-states, in the order of their codes 0..7. They split AWAIT_OPCODE and rename the others. -/
inductive SubState where
  | idle
  | hdr
  | op
  | lit
  | luma2
  | emit
  | done
  | err
  deriving DecidableEq, Repr

/-- R17: the engine state at operator level, in the order of its values 0..4. -/
inductive EngineState where
  | idle
  | header
  | awaitOpcode
  | done
  | error
  deriving DecidableEq, Repr

/-- R18: the error codes 0..3. -/
inductive ErrCode where
  | none
  | formatError
  | decodeError
  | unexpectedEndOfStream
  deriving DecidableEq, Repr

/-- R15: the header registers. `magic` is bytes 0..3 as one big-endian word. -/
structure Header where
  magic : BitVec 32
  width : BitVec 32
  height : BitVec 32
  channels : Byte
  colorspace : Byte
  deriving DecidableEq, Repr

/-- R21: the hidden registers of the reference machine, less `sub` (a field of State); `hbuf` is the `h[0..13]` of R93. -/
structure Hidden where
  b0 : Byte
  lit : Vector Byte 4
  hbuf : Vector Byte 14
  cnt : BitVec 4
  pend : Pixel
  rem : BitVec 6
  opPos : Nat
  deriving DecidableEq, Repr

/-- OUT as the consumer stores it (R32, decision D31): byte `4*i + c` is component `c` of pixel `i`. Canonical form:
addresses strictly rising. An unlisted address holds NO VALUE (R33). -/
abbrev Memory := List Host.Cell

/-- The canonical form of OUT. -/
abbrev Memory.wf (m : Memory) : Prop := m.Pairwise fun x y => x.1 < y.1

/-- One `Emit` of the current decode: the index it had, its pixel, and whether its OUT write was issued (R79). -/
structure Emission where
  index : Nat
  pixel : Pixel
  written : Bool
  deriving DecidableEq, Repr

/-- What the controller asserts in one operator-level step (R91, R116): nothing, `start` with the stream its byte source
then presents, or `rst` (which overrides `start`). -/
inductive Command where
  | quiet
  | start (S : List Byte)
  | rst
  deriving DecidableEq, Repr

/-- The machine and its environment. -/
structure State where
  /-- R11: the previous-pixel register. -/
  prev : Pixel
  /-- R14: the pixel cache. -/
  cache : Vector Pixel 64
  /-- R13: the write cursor, pixels emitted so far. -/
  cursor : Nat
  /-- R12: the stream position, bytes consumed so far. -/
  pos : Nat
  /-- R15: the header registers. -/
  hdr : Header
  /-- R20: the flag `hdr_valid`. -/
  hdrValid : Bool
  /-- R92: the sub-state; the engine state of R17 is the view `State.state` of it. -/
  sub : SubState
  /-- R18: the error code. -/
  errCode : ErrCode
  /-- R19: the stream offset of the failing item. -/
  errPos : Nat
  /-- R21: the hidden registers. -/
  hidden : Hidden
  /-- R29: `S`, the byte sequence the byte source presents (the environment's). -/
  stream : List Byte
  /-- R31: the consumer's output buffer (the environment's). -/
  out : Memory
  /-- R91, R116: what the controller asserts in the coming steps, the next one first (the environment's). -/
  commands : List Command
  /-- The model's own: the `Emit` calls of this decode, newest first. No rule reads it; R27, R82 and R86 are stated by it. -/
  trace : List Emission
  /-- The model's own: how many resets have drawn free values. -/
  draws : Nat
  deriving DecidableEq, Repr

/-- R92, column "Operator-level `state`". -/
def SubState.engine : SubState → EngineState
  | .idle => .idle
  | .hdr => .header
  | .op => .awaitOpcode
  | .lit => .awaitOpcode
  | .luma2 => .awaitOpcode
  | .emit => .awaitOpcode
  | .done => .done
  | .err => .error

/-- R10, R17: the engine state. -/
def State.state (s : State) : EngineState := s.sub.engine

/-- Why a CLAIM about the machine stops: a read of OUT to which the spec gives no value. No step of the machine raises
one: the block never reads OUT (R31), and the three errors of R100 are states, not stops. Both are safe: they give a claim
less, never more. -/
inductive Fault where
  /-- `readOut` of an entry this decode never wrote (R33). Safe. -/
  | outEntryUnwritten (index : Nat)
  /-- `readOut` of an index outside `0 .. npix - 1` (R28, R44). Safe. -/
  | outIndexOutside (index : Nat)
  deriving DecidableEq, Repr

/-- What the model refuses, by name. -/
inductive Refusal where
  /-- An instruction without a meaning. Raised by no arm of `exec`. Safe. -/
  | notModelled (mnemonic : String)
  /-- `exec`, `step`, `tick`: the position would reach `2^64` (R12, D12, V7: "refuse"). Safe. -/
  | positionLimit
  /-- `exec`, `step`, `tick`: the cursor would reach `2^64` (R13, D12, V7: "refuse"). Safe. -/
  | cursorLimit
  /-- `clock`: the environment breaks the channel protocol (R39, D24, V6: "a model refuses such an environment"). Safe. -/
  | channelProtocol
  /-- `readHeader`, `readOut`: the header registers are read while `hdr_valid = 0` (R15, D21, V2: "refuse"). Safe. -/
  | headerNotValid
  deriving DecidableEq, Repr

/-- After `rst` (R26, R116): IDLE, both counters 0, `hdr_valid` 0, no error. `prev` and `cache` stand at `PREV_INIT` and
`CACHE_INIT`, every other register the spec leaves unspecified at zero (DESIGN CHOICE, log entry 2). -/
def State.reset : State where
  prev := Config.prevInit
  cache := Vector.replicate 64 Config.cacheInit
  cursor := 0
  pos := 0
  hdr := ⟨0#32, 0#32, 0#32, 0#8, 0#8⟩
  hdrValid := false
  sub := .idle
  errCode := .none
  errPos := 0
  hidden := ⟨0#8, Vector.replicate 4 0#8, Vector.replicate 14 0#8, 0#4, ⟨0#8, 0#8, 0#8, 0#8⟩, 0#6, 0⟩
  stream := []
  out := []
  commands := []
  trace := []
  draws := 0

end Sys2Proof.Machine
end

