-- ==== Sys2Proof/Machine/Operands.lean ====
section
/-! DEFINITION. Operand assembly (rule R53), component arithmetic (R7, R74), the packed pixel (R7, D14), the numeric codes
of R17, R18 and R92, and the pixel each operator computes from its operands and `prev` (R69 to R73). -/

namespace Sys2Proof.Machine

/-- R7: `x mod 256`, the mathematical modulus. -/
def wrap8 (x : Int) : Byte := BitVec.ofNat 8 (x % 256).toNat

/-- R74(a): `wrap8(c + d)`. -/
def addDelta (c : Byte) (d : Int) : Byte := wrap8 ((c.toNat : Int) + d)

/-- R53: DIFF `dr`, `dg`, `db`: the field less 2. -/
def diffDelta (f : BitVec 2) : Int := (f.toNat : Int) - Config.diffBias

/-- R53: LUMA `dg`: the field less 32. -/
def lumaDg (fg : BitVec 6) : Int := (fg.toNat : Int) - Config.lumaGBias

/-- R53: LUMA `dr - dg` or `db - dg`: the field less 8. -/
def lumaDiff (f : BitVec 4) : Int := (f.toNat : Int) - Config.lumaRBBias

/-- R53: RUN `count`: the field plus 1. -/
def runCount (n : BitVec 6) : Nat := n.toNat + Config.runBias

/-- R53: INDEX `k`: the field, zero extended. -/
def slotOf (k : BitVec 6) : Fin 64 := k.toFin

/-- R69: the literals, alpha from the previous pixel. -/
def rgbPixel (prev : Pixel) (r g b : Byte) : Pixel := ⟨r, g, b, prev.a⟩

/-- R72: a delta on each colour component, alpha unchanged. -/
def diffPixel (prev : Pixel) (fr fg fb : BitVec 2) : Pixel :=
  ⟨addDelta prev.r (diffDelta fr), addDelta prev.g (diffDelta fg), addDelta prev.b (diffDelta fb), prev.a⟩

/-- R73: `dr = drg + dg` and `db = dbg + dg` are formed as integers before the one `wrap8`. -/
def lumaPixel (prev : Pixel) (fg : BitVec 6) (frg fbg : BitVec 4) : Pixel :=
  ⟨addDelta prev.r (lumaDiff frg + lumaDg fg), addDelta prev.g (lumaDg fg),
   addDelta prev.b (lumaDiff fbg + lumaDg fg), prev.a⟩

/-- R78 `Hash`: the sum on integers, then mod 64. -/
def slotHash (p : Pixel) : Fin 64 :=
  ⟨(Config.hashR * p.r.toNat + Config.hashG * p.g.toNat + Config.hashB * p.b.toNat + Config.hashA * p.a.toNat) % 64,
   Nat.mod_lt _ (by decide)⟩

/-- R90: an operator as a pure function of its operands, the previous pixel and the cache to the pixels it emits, in
order; HEADER emits none (R61). -/
def pixelsOf (prev : Pixel) (cache : Vector Pixel 64) : Instr → List Pixel
  | .header _ _ _ _ _ => []
  | .rgb r g b => [rgbPixel prev r g b]
  | .rgba r g b a => [⟨r, g, b, a⟩]
  | .index k => [cache.get (slotOf k)]
  | .diff fr fg fb => [diffPixel prev fr fg fb]
  | .luma fg frg fbg => [lumaPixel prev fg frg fbg]
  | .run n => List.replicate (runCount n) prev

/-- R7, D14: `{r, g, b, a}`, r in bits 31:24. -/
def pack (p : Pixel) : BitVec 32 := p.r ++ p.g ++ p.b ++ p.a

/-- The pixel whose packed form is `w`. -/
def unpack (w : BitVec 32) : Pixel :=
  ⟨w.extractLsb' 24 8, w.extractLsb' 16 8, w.extractLsb' 8 8, w.extractLsb' 0 8⟩

/-- R17: the numeric values of the engine state. -/
def EngineState.code : EngineState → BitVec 3
  | .idle => 0#3
  | .header => 1#3
  | .awaitOpcode => 2#3
  | .done => 3#3
  | .error => 4#3

/-- R92: the codes of the sub-states. -/
def SubState.code : SubState → BitVec 3
  | .idle => 0#3
  | .hdr => 1#3
  | .op => 2#3
  | .lit => 3#3
  | .luma2 => 4#3
  | .emit => 5#3
  | .done => 6#3
  | .err => 7#3

/-- R18: the numeric error codes. -/
def ErrCode.code : ErrCode → BitVec 2
  | .none => 0#2
  | .formatError => 1#2
  | .decodeError => 2#2
  | .unexpectedEndOfStream => 3#2

end Sys2Proof.Machine
end

