-- ==== Sys2Proof/Machine/Flags.lean ====
section
/-! DEFINITION. The size of the image (rule R16) and the status flags (R20). The block has no condition codes: no operator
reads or sets a flag. -/

namespace Sys2Proof.Machine

/-- R16: the exact product. -/
def State.npix (s : State) : Nat := s.hdr.width.toNat * s.hdr.height.toNat

/-- R79: the cursor is inside the image, so a pixel emitted now is written to OUT. -/
def State.inside (s : State) : Bool := decide (s.cursor < s.npix)

/-- R20 `done`. -/
def State.done (s : State) : Bool := s.state == .done

/-- R20 `error`. -/
def State.error (s : State) : Bool := s.state == .error

/-- R20 `busy`. -/
def State.busy (s : State) : Bool := s.state == .header || s.state == .awaitOpcode

/-- R20 `short`: fewer pixels decoded than the header declares. -/
def State.short (s : State) : Bool := s.hdrValid && s.inside

end Sys2Proof.Machine
end

