-- ==== Sys2Proof/Machine/Ops.lean ====
section
/-! DEFINITION. The named operations every meaning is written from: OUT and its bytes (rules R31 to R33), the stream (R8,
R29), the cache and `Emit` (R79), the latches of the reference machine (R21, R93), taking an error (R106), the two resets
(R116, R117), the end of a decode (R87), and the refusal at the counters' limit (V7). -/

namespace Sys2Proof.Machine

/-! ### OUT -/

/-- The byte at an address, none where nothing was ever written (R33). -/
def Memory.readByte (m : Memory) (a : Nat) : Option Byte :=
  match m with
  | [] => none
  | (b, v) :: rest => if b = a then some v else Memory.readByte rest a

/-- Write one byte, keeping addresses strictly rising. -/
def Memory.writeByte (m : Memory) (a : Nat) (v : Byte) : Memory :=
  match m with
  | [] => [(a, v)]
  | (b, w) :: rest =>
    if a < b then (a, v) :: (b, w) :: rest
    else if a = b then (a, v) :: rest
    else (b, w) :: Memory.writeByte rest a v

/-- D31: the address of component `c` (r 0, g 1, b 2, a 3) of pixel `i`. -/
def outAddress (i c : Nat) : Nat := 4 * i + c

/-- `MemWrite(OUT, i, 4, p)`: all four components at once (R38). -/
def Memory.writePixel (m : Memory) (i : Nat) (p : Pixel) : Memory :=
  (((m.writeByte (outAddress i 0) p.r).writeByte (outAddress i 1) p.g).writeByte (outAddress i 2) p.b).writeByte
    (outAddress i 3) p.a

/-- The pixel at index `i`, none unless all four bytes have a value. -/
def Memory.readPixel (m : Memory) (i : Nat) : Option Pixel :=
  match m.readByte (outAddress i 0), m.readByte (outAddress i 1), m.readByte (outAddress i 2),
    m.readByte (outAddress i 3) with
  | some r, some g, some b, some a => some ⟨r, g, b, a⟩
  | _, _, _, _ => none

/-- R32: the row and the column of pixel index `i`. -/
def State.pixelRow (s : State) (i : Nat) : Nat := i / s.hdr.width.toNat
def State.pixelColumn (s : State) (i : Nat) : Nat := i % s.hdr.width.toNat

/-- A claim's read of the header registers: refused while `hdr_valid = 0` (R15, V2). -/
def State.readHeader (s : State) : Host.Outcome Header Fault Refusal :=
  if s.hdrValid then .next s.hdr else .refused .headerNotValid

/-- A claim's read of the image: an entry this decode did not write has no value (R33, V5). -/
def State.readOut (s : State) (i : Nat) : Host.Outcome Pixel Fault Refusal :=
  if s.hdrValid then
    if i < s.npix then
      if i < s.cursor then
        match s.out.readPixel i with
        | some p => .next p
        | none => .fault (.outEntryUnwritten i)
      else .fault (.outEntryUnwritten i)
    else .fault (.outIndexOutside i)
  else .refused .headerNotValid

/-! ### STREAM -/

/-- The bytes not yet consumed. -/
def State.unread (s : State) : List Byte := s.stream.drop s.pos

/-- R8 `StreamRead()`: the byte at `pos`, which it consumes; none where the stream is exhausted. -/
def State.streamRead (s : State) : Option (Byte × State) :=
  match s.unread with
  | [] => none
  | b :: _ => some (b, { s with pos := s.pos + 1 })

/-- Whether `n` bytes from `pos` on exist (R103). -/
def State.fits (s : State) (n : Nat) : Bool := decide (s.pos + n ≤ s.stream.length)

/-- `n` bytes consumed, all of them there. -/
def State.consume (s : State) (n : Nat) : State := { s with pos := s.pos + n }

/-- Every byte that was left consumed (R103). -/
def State.consumeAll (s : State) : State := { s with pos := s.stream.length }

/-! ### The latches of the reference machine (R93) -/

/-- `b0 <- in_data; op_pos <- pos`, before `pos` moves. -/
def State.latchTag (s : State) (b0 : Byte) : State :=
  { s with hidden := { s.hidden with b0 := b0, opPos := s.pos } }

/-- `cnt <- 0`. -/
def State.clearCnt (s : State) : State := { s with hidden := { s.hidden with cnt := 0#4 } }

/-- Byte `i` of a byte register replaced; nothing where there is no byte `i`. -/
def putByte {n : Nat} (v : Vector Byte n) (i : Nat) (b : Byte) : Vector Byte n := if h : i < n then v.set i b h else v

/-- `lit[cnt] <- in_data; cnt <- cnt + 1`. -/
def State.latchOperand (s : State) (b : Byte) : State :=
  { s with hidden := { s.hidden with
      lit := putByte s.hidden.lit s.hidden.cnt.toNat b, cnt := s.hidden.cnt + 1#4 } }

/-- `h[cnt] <- in_data; cnt <- cnt + 1`. -/
def State.latchHeaderByte (s : State) (b : Byte) : State :=
  { s with hidden := { s.hidden with
      hbuf := putByte s.hidden.hbuf s.hidden.cnt.toNat b, cnt := s.hidden.cnt + 1#4 } }

/-- Bytes `i`, `i + 1`, ... of a byte register replaced. -/
def putBytes {n : Nat} (v : Vector Byte n) (i : Nat) (bs : List Byte) : Vector Byte n :=
  match bs with
  | [] => v
  | b :: rest => putBytes (putByte v i b) (i + 1) rest

/-- Operand bytes latched one after another. -/
def State.latchOperands (s : State) (bs : List Byte) : State :=
  { s with hidden := { s.hidden with
      lit := putBytes s.hidden.lit s.hidden.cnt.toNat bs, cnt := s.hidden.cnt + BitVec.ofNat 4 bs.length } }

/-- Header bytes latched one after another. -/
def State.latchHeaderBytes (s : State) (bs : List Byte) : State :=
  { s with hidden := { s.hidden with
      hbuf := putBytes s.hidden.hbuf s.hidden.cnt.toNat bs, cnt := s.hidden.cnt + BitVec.ofNat 4 bs.length } }

/-- `h[13] <- in_data`, the byte that completes the record. -/
def State.latchLastHeaderByte (s : State) (b : Byte) : State :=
  { s with hidden := { s.hidden with hbuf := s.hidden.hbuf.set 13 b } }

/-- `pend <- p; rem <- n`. -/
def State.latchPend (s : State) (p : Pixel) (n : BitVec 6) : State :=
  { s with hidden := { s.hidden with pend := p, rem := n } }

/-! ### The cache and `Emit` -/

/-- R79 `Emit(p)`: the OUT write while the cursor is inside the image, the cursor, `prev`, the cache slot of the hash. -/
def State.emit (s : State) (p : Pixel) : State :=
  { s with
    out := bif s.inside then s.out.writePixel s.cursor p else s.out
    cursor := s.cursor + 1
    prev := p
    cache := s.cache.set (slotHash p) p
    trace := ⟨s.cursor, p, s.inside⟩ :: s.trace }

/-- The same pixel emitted `n` times, one full `Emit` each (R77, R80). -/
def State.emitTimes (s : State) (p : Pixel) (n : Nat) : State :=
  match n with
  | 0 => s
  | n + 1 => (s.emit p).emitTimes p n

/-- The pixels of one operator, emitted in order; `pend` and `rem` are left as R93 leaves them after the last. -/
def State.produce (s : State) (p : Pixel) (n : Nat) : State := (s.latchPend p 0#6).emitTimes p n

/-! ### HEADER -/

/-- R61: the header registers written, `hdr_valid` set, the engine in AWAIT_OPCODE. -/
def State.loadHeader (s : State) (h : Header) : State := { s with hdr := h, hdrValid := true, sub := .op }

/-! ### Taking an error, the end of a decode -/

/-- R106 `raise E(err_pos = q)`: three registers, and nothing else. -/
def State.raise (s : State) (e : ErrCode) (q : Nat) : State := { s with errCode := e, errPos := q, sub := .err }

/-- R103: UnexpectedEndOfStream of the item at `q`, every byte that was left consumed. -/
def State.endOfStream (s : State) (q : Nat) : State := s.consumeAll.raise .unexpectedEndOfStream q

/-- R63, R103: the stream ended inside HEADER. -/
def State.headerEnded (s : State) : State := (s.latchHeaderBytes s.unread).endOfStream 0

/-- R62, R101: the first four bytes are not the magic; they are consumed, the fourth one judged before it is latched. -/
def State.magicMismatch (s : State) (m : BitVec 32) : State :=
  ((s.latchHeaderBytes [beByte m 0, beByte m 1, beByte m 2]).consume 4).raise .formatError 0

/-- R69, R70, R103: the stream ended inside the RGB or RGBA whose tag byte is `b0`. -/
def State.literalEnded (s : State) (b0 : Byte) : State :=
  (((s.latchTag b0).clearCnt).latchOperands (s.stream.drop (s.pos + 1))).endOfStream s.pos

/-- R73, R103: the stream ended after the tag byte of a LUMA. -/
def State.lumaEnded (s : State) (b0 : Byte) : State := (s.latchTag b0).endOfStream s.pos

/-- R102: a tag byte that matches no tag, itself consumed. Unreachable (R67). -/
def State.tagUnknown (s : State) : State := (s.consume 1).raise .decodeError s.pos

/-- R87: the stream is exhausted at an operator boundary. With `STRICT_PIXEL_COUNT` a short image is an error (D9). -/
def State.finalise (s : State) (strict : Bool) : State :=
  if strict && s.inside then s.raise .unexpectedEndOfStream s.stream.length
  else { s with sub := .done }

/-! ### The two resets -/

/-- A free byte and a free pixel. -/
def freeByte (draw : Nat) (item : FreeItem) : Byte := (Config.freeValue draw item).setWidth 8
def freePixel (draw : Nat) (item : FreeItem) : Pixel := unpack ((Config.freeValue draw item).setWidth 32)

/-- Header registers of no known value (R15). -/
def freeHeader (draw : Nat) : Header where
  magic := (Config.freeValue draw .magic).setWidth 32
  width := (Config.freeValue draw .width).setWidth 32
  height := (Config.freeValue draw .height).setWidth 32
  channels := freeByte draw .channels
  colorspace := freeByte draw .colorspace

/-- Hidden registers of no known value (R21). -/
def freeHidden (draw : Nat) : Hidden where
  b0 := freeByte draw .b0
  lit := Vector.ofFn fun i => freeByte draw (.lit i.val)
  hbuf := Vector.ofFn fun i => freeByte draw (.hbuf i.val)
  cnt := (Config.freeValue draw .cnt).setWidth 4
  pend := freePixel draw .pend
  rem := (Config.freeValue draw .rem).setWidth 6
  opPos := (Config.freeValue draw .opPos).toNat

/-- R116: `rst`. What the spec leaves unspecified is free; STREAM and OUT are not touched (R119). -/
def State.powerOnReset (s : State) : State :=
  { s with
    prev := freePixel s.draws .prev
    cache := Vector.ofFn fun k => freePixel s.draws (.cache k.val)
    cursor := 0
    pos := 0
    hdr := freeHeader s.draws
    hdrValid := false
    sub := .idle
    errCode := .none
    errPos := (Config.freeValue s.draws .errPos).toNat
    hidden := freeHidden s.draws
    trace := []
    draws := s.draws + 1 }

/-- R117, R93: the per-decode reset that an accepted `start` performs. -/
def State.perDecodeReset (s : State) : State :=
  { s with
    prev := Config.prevInit
    cache := Vector.replicate 64 Config.cacheInit
    cursor := 0
    pos := 0
    hdr := freeHeader s.draws
    hdrValid := false
    sub := .hdr
    errCode := .none
    errPos := (Config.freeValue s.draws .errPos).toNat
    hidden := { freeHidden s.draws with cnt := 0#4 }
    trace := []
    draws := s.draws + 1 }

/-- The byte source presents `S` (R121). -/
def State.present (s : State) (S : List Byte) : State := { s with stream := S }

/-- The controller's commands still to come. -/
def State.queue (s : State) (q : List Command) : State := { s with commands := q }

/-! ### The end of a step -/

/-- The next state, refused where a counter has reached its limit (D12, V7). -/
def State.commit (s : State) : Host.Outcome State Fault Refusal :=
  if Config.counterLimit ≤ s.pos then .refused .positionLimit
  else if Config.counterLimit ≤ s.cursor then .refused .cursorLimit
  else .next s

end Sys2Proof.Machine
end

