-- ==== Sys2Proof/Machine/Cycle.lean ====
section
/-! DEFINITION. The cycle-level machine (rules R92, R93): one clock edge as a function of the input ports; the ports
(R24, R92) and the result (R115); the channel protocol the environment owes (R39, D24); and the operator in progress
carried to its end, which is how the operator-level step sees a state between two operators' edges. -/

namespace Sys2Proof.Machine

/-! ### The input ports (R24) -/

/-- The input ports in one clock cycle. -/
structure Inputs where
  rst : Bool
  start : Bool
  inValid : Bool
  inData : Byte
  inEos : Bool
  outReady : Bool
  deriving DecidableEq, Repr

/-- R92 `in_ready`. -/
def SubState.inReady : SubState → Bool
  | .idle => false
  | .hdr => true
  | .op => true
  | .lit => true
  | .luma2 => true
  | .emit => false
  | .done => false
  | .err => false

/-- R92 `in_ready`. -/
def State.inReady (s : State) : Bool := s.sub.inReady

/-- R92 `out_valid`: in S_EMIT, while the cursor is inside the image. -/
def State.outValid (s : State) : Bool := s.sub == .emit && s.inside

/-! ### What a byte does in each sub-state that reads one (R93) -/

/-- The header registers from `h[0..13]` (R61). -/
def headerOf (h : Vector Byte 14) : Header :=
  ⟨beWord h[0] h[1] h[2] h[3], beWord h[4] h[5] h[6] h[7], beWord h[8] h[9] h[10] h[11], h[12], h[13]⟩

/-- S_HDR, byte. -/
def State.hdrByte (s : State) (b : Byte) : State :=
  let h := s.hidden.hbuf
  if s.hidden.cnt = 3#4 ∧ beWord h[0] h[1] h[2] b ≠ Config.magic then (s.consume 1).raise .formatError 0
  else if s.hidden.cnt = 13#4 then
    let t := s.latchLastHeaderByte b
    (t.consume 1).loadHeader (headerOf t.hidden.hbuf)
  else (s.latchHeaderByte b).consume 1

/-- S_OP, byte: the tag byte of an operator. -/
def State.opByte (s : State) (b : Byte) : State :=
  match classify b with
  | some .rgb => { ((s.latchTag b).clearCnt).consume 1 with sub := .lit }
  | some .rgba => { ((s.latchTag b).clearCnt).consume 1 with sub := .lit }
  | some .luma => { (s.latchTag b).consume 1 with sub := .luma2 }
  | some .index => { (s.latchPend (s.cache.get (slotOf (b.extractLsb' 0 6))) 0#6).consume 1 with sub := .emit }
  | some .diff =>
    { (s.latchPend (diffPixel s.prev (b.extractLsb' 4 2) (b.extractLsb' 2 2) (b.extractLsb' 0 2)) 0#6).consume 1 with
      sub := .emit }
  | some .run => { (s.latchPend s.prev (b.extractLsb' 0 6)).consume 1 with sub := .emit }
  | none => s.tagUnknown

/-- Operand bytes of the operator in S_LIT: four for RGBA, three for RGB. -/
def State.litTotal (s : State) : Nat := if s.hidden.b0 = 0xFF#8 then 4 else 3

/-- S_LIT, byte: a literal operand. -/
def State.litByte (s : State) (b : Byte) : State :=
  if s.hidden.cnt.toNat + 1 < s.litTotal then (s.latchOperand b).consume 1
  else
    let l := s.hidden.lit
    let p := if s.hidden.b0 = 0xFF#8 then ⟨l[0], l[1], l[2], b⟩ else rgbPixel s.prev l[0] l[1] b
    { (s.latchPend p 0#6).consume 1 with sub := .emit }

/-- S_LUMA2, byte: the second byte of a LUMA. -/
def State.lumaSecond (s : State) (b : Byte) : State :=
  { (s.latchPend (lumaPixel s.prev (s.hidden.b0.extractLsb' 0 6) (b.extractLsb' 4 4) (b.extractLsb' 0 4)) 0#6).consume 1
    with sub := .emit }

/-- S_EMIT, the handshake of a pixel inside the image or the cycle of one beyond it. -/
def State.emitPend (s : State) : State :=
  let t := s.emit s.hidden.pend
  if s.hidden.rem = 0#6 then { t with sub := .op }
  else { t with hidden := { t.hidden with rem := t.hidden.rem - 1#6 } }

/-! ### One clock edge -/

/-- R93: a sub-state with `in_ready = 1`: a byte is taken, or the end of the stream is seen, or nothing changes (R95). -/
def State.receive (s : State) (i : Inputs) (onByte : Byte → State) (onEos : State) : State :=
  if i.inValid then onByte i.inData else if i.inEos then onEos else s

/-- R93: the transition table, `rst` before everything (R116). In a cycle in which `rst` is high no pixel is emitted, no OUT
write happens and no byte is consumed, even where the ports carry a handshake: R40 and R39 alone would let it happen. DESIGN
CHOICE (log entry 21). -/
def State.transition (s : State) (i : Inputs) : State :=
  if i.rst then s.powerOnReset
  else
    match s.sub with
    | .idle => if i.start then s.perDecodeReset else s
    | .done => if i.start then s.perDecodeReset else s
    | .err => if i.start then s.perDecodeReset else s
    | .hdr => s.receive i s.hdrByte (s.raise .unexpectedEndOfStream 0)
    | .op => s.receive i s.opByte (s.finalise Config.strictPixelCount)
    | .lit => s.receive i s.litByte (s.raise .unexpectedEndOfStream s.hidden.opPos)
    | .luma2 => s.receive i s.lumaSecond (s.raise .unexpectedEndOfStream s.hidden.opPos)
    | .emit => if s.inside && !i.outReady then s else s.emitPend

/-- One clock edge of the block. -/
def tick (i : Inputs) (s : State) : Host.Outcome State Fault Refusal := (s.transition i).commit

/-! ### The environment of the block (R39) -/

/-- What a byte source that never waits and a sink that always accepts drive in a state (R96: "no stalls"). -/
def State.readyInputs (s : State) : Inputs :=
  match s.unread with
  | [] => ⟨false, false, false, 0#8, true, true⟩
  | b :: _ => ⟨false, false, true, b, false, true⟩

/-- One edge without a stall. -/
def State.drive (s : State) : State := s.transition s.readyInputs

/-- `n` edges without a stall. -/
def State.driveFor (s : State) (n : Nat) : State :=
  match n with
  | 0 => s
  | n + 1 => s.drive.driveFor n

/-- R96: edges of one item without a stall (informative in the spec). -/
def edgesOf : Instr → Nat
  | .header _ _ _ _ _ => 14
  | .rgb _ _ _ => 5
  | .rgba _ _ _ _ => 6
  | .index _ => 2
  | .diff _ _ _ => 2
  | .luma _ _ _ => 3
  | .run n => 1 + runCount n

/-- R92: no operator and no header record is in progress. -/
def State.atBoundary (s : State) : Bool :=
  match s.sub with
  | .idle => true
  | .hdr => decide (s.hidden.cnt = 0#4)
  | .op => true
  | .lit => false
  | .luma2 => false
  | .emit => false
  | .done => true
  | .err => true

/-- Edges without a stall that the item in progress takes when its bytes are all there (R93, R96). -/
def State.edgesLeft (s : State) : Nat :=
  match s.sub with
  | .idle => 0
  | .hdr =>
    if s.hidden.cnt = 0#4 then 0
    else if s.hidden.cnt.toNat ≤ 13 then 14 - s.hidden.cnt.toNat
    else 16 - s.hidden.cnt.toNat
  | .op => 0
  | .lit => max 1 (s.litTotal - s.hidden.cnt.toNat) + 1
  | .luma2 => 2
  | .emit => s.hidden.rem.toNat + 1
  | .done => 0
  | .err => 0

/-- Edges without a stall until the item in progress is over, at most `n`. -/
def State.driveToBoundary (s : State) (n : Nat) : State :=
  match n with
  | 0 => s
  | n + 1 => if s.atBoundary then s else s.drive.driveToBoundary n

/-- The item in progress carried to its end; a state between items is left alone. -/
def State.finish (s : State) : State := s.driveToBoundary s.edgesLeft

/-- R39: the channel facts of the cycle before that the protocol speaks of: `in_eos` was asserted, and the byte that was
offered without being accepted. -/
structure Channel where
  eosHeld : Bool
  offered : Option Byte
  deriving DecidableEq, Repr

/-- The block with its byte source. -/
structure Bench where
  machine : State
  channel : Channel
  deriving DecidableEq, Repr

/-- Whether a `start` is taken in this cycle (R91). -/
def State.takesStart (s : State) (i : Inputs) : Bool := i.start && !s.busy

/-- R39: what a source of `s.stream` may drive. `in_eos` never with `in_valid`; while the block is busy the byte offered is
`S[pos]` and `in_eos` means that there is none; `in_eos` once asserted stays, and a byte offered and not accepted does not
change, until `rst` or the next `start`. -/
def Bench.obeys (b : Bench) (i : Inputs) : Bool :=
  let s := b.machine
  !(i.inValid && i.inEos) &&
  (!s.busy || !i.inValid || s.unread.head? == some i.inData) &&
  (!s.busy || !i.inEos || s.unread.isEmpty) &&
  (i.rst || s.takesStart i || !b.channel.eosHeld || i.inEos) &&
  (i.rst || s.takesStart i || !i.inValid || b.channel.offered == none || b.channel.offered == some i.inData)

/-- What the protocol remembers of a cycle. -/
def Channel.next (s : State) (i : Inputs) : Channel :=
  if i.rst || s.takesStart i then ⟨false, none⟩
  else ⟨i.inEos, if i.inValid && !s.inReady then some i.inData else none⟩

/-- One clock edge of the block and its environment; `S` is the stream that a decode starting here is given (R91, R121).
An environment that breaks the protocol is refused (V6). -/
def clock (S : List Byte) (i : Inputs) (b : Bench) : Host.Outcome Bench Fault Refusal :=
  if b.obeys i then
    let s := if b.machine.takesStart i && !i.rst then b.machine.present S else b.machine
    match tick i s with
    | .next t => .next ⟨t, Channel.next b.machine i⟩
    | .fault r => .fault r
    | .refused r => .refused r
  else .refused .channelProtocol

/-! ### The output ports (R24) and the result (R115) -/

/-- The output ports. `outPixel` and `outIndex` have a value in S_EMIT only (R92), the header ports while `hdr_valid = 1`. -/
structure Outputs where
  inReady : Bool
  outValid : Bool
  outPixel : Option (BitVec 32)
  outIndex : Option (BitVec 64)
  hdrValid : Bool
  hdrWidth : Option (BitVec 32)
  hdrHeight : Option (BitVec 32)
  hdrChannels : Option Byte
  hdrColorspace : Option Byte
  busy : Bool
  done : Bool
  error : Bool
  short : Bool
  errCode : BitVec 2
  errPos : Option (BitVec 64)
  pxCount : BitVec 64
  byteCount : BitVec 64
  deriving DecidableEq, Repr

/-- A port that has a value only under a condition. -/
def portWhen {α : Type} (c : Bool) (v : α) : Option α := if c then some v else none

/-- R24, R92: the output ports in a state. -/
def State.outputs (s : State) : Outputs where
  inReady := s.inReady
  outValid := s.outValid
  outPixel := portWhen (s.sub == .emit) (pack s.hidden.pend)
  outIndex := portWhen (s.sub == .emit) (BitVec.ofNat 64 s.cursor)
  hdrValid := s.hdrValid
  hdrWidth := portWhen s.hdrValid s.hdr.width
  hdrHeight := portWhen s.hdrValid s.hdr.height
  hdrChannels := portWhen s.hdrValid s.hdr.channels
  hdrColorspace := portWhen s.hdrValid s.hdr.colorspace
  busy := s.busy
  done := s.done
  error := s.error
  short := s.short
  errCode := s.errCode.code
  errPos := portWhen s.error (BitVec.ofNat 64 s.errPos)
  pxCount := BitVec.ofNat 64 s.cursor
  byteCount := BitVec.ofNat 64 s.pos

/-- R86, R115: the result of a decode. -/
structure Report where
  state : EngineState
  errCode : ErrCode
  errPos : Option Nat
  header : Option Header
  pxCount : Nat
  byteCount : Nat
  short : Bool
  writes : List (Nat × Pixel)
  deriving DecidableEq, Repr

/-- The OUT writes of this decode, in the order issued (R31). -/
def State.outWrites (s : State) : List (Nat × Pixel) :=
  (s.trace.reverse.filter Emission.written).map fun e => (e.index, e.pixel)

/-- R86, R115. `err_pos` counts only in ERROR (R19), the header only while `hdr_valid = 1` (R15). -/
def State.report (s : State) : Report where
  state := s.state
  errCode := s.errCode
  errPos := portWhen s.error s.errPos
  header := portWhen s.hdrValid s.hdr
  pxCount := s.cursor
  byteCount := s.pos
  short := s.short
  writes := s.outWrites

end Sys2Proof.Machine
end

