-- ==== Sys2Proof/Machine/Delta.lean ====
section
/-! DEFINITION. The meanings of DIFF and LUMA (rules R72, R73). `s.pos` is the offset of the tag byte. -/

namespace Sys2Proof.Machine

/-- R72: DIFF. -/
def execDiff (fr fg fb : BitVec 2) (s : State) : Host.Outcome State Fault Refusal :=
  ((s.consume 1).produce (diffPixel s.prev fr fg fb) 1).commit

/-- R73: LUMA. -/
def execLuma (fg : BitVec 6) (frg fbg : BitVec 4) (s : State) : Host.Outcome State Fault Refusal :=
  if s.fits 2 then
    (((s.latchTag (lumaTag fg)).consume 2).produce (lumaPixel s.prev fg frg fbg) 1).commit
  else (s.lumaEnded (lumaTag fg)).commit

end Sys2Proof.Machine
end

