-- ==== Sys2Proof/Machine/HeaderRecord.lean ====
section
/-! DEFINITION. The meaning of HEADER (rules R61 to R64). -/

namespace Sys2Proof.Machine

/-- R61: fourteen bytes into the header registers. The order of the checks is R105's: fewer than four bytes end the
stream, then the magic is judged, then fewer than fourteen end it (R63). -/
def execHeader (magic width height : BitVec 32) (channels colorspace : Byte) (s : State) :
    Host.Outcome State Fault Refusal :=
  if s.fits 4 then
    if magic = Config.magic then
      if s.fits 14 then
        let bytes := encode (.header magic width height channels colorspace)
        let t := (s.latchHeaderBytes (bytes.take 13)).latchLastHeaderByte colorspace
        ((t.consume 14).loadHeader ⟨magic, width, height, channels, colorspace⟩).commit
      else s.headerEnded.commit
    else (s.magicMismatch magic).commit
  else s.headerEnded.commit

end Sys2Proof.Machine
end

