-- ==== Sys2Proof/Machine/Indexed.lean ====
section
/-! DEFINITION. The meaning of INDEX (rule R71). -/

namespace Sys2Proof.Machine

/-- R71: INDEX. The slot is read before the `Emit` writes the slot of the pixel's own hash. -/
def execIndex (k : BitVec 6) (s : State) : Host.Outcome State Fault Refusal :=
  ((s.consume 1).produce (s.cache.get (slotOf k)) 1).commit

end Sys2Proof.Machine
end

