-- ==== Sys2Proof/Machine/Literal.lean ====
section
/-! DEFINITION. The meanings of RGB and RGBA (rules R69, R70). `s.pos` is the offset of the tag byte. -/

namespace Sys2Proof.Machine

/-- R69: RGB. Alpha is that of `prev` at entry. -/
def execRgb (r g b : Byte) (s : State) : Host.Outcome State Fault Refusal :=
  if s.fits 4 then
    ((((s.latchTag 0xFE#8).clearCnt).latchOperands [r, g]).consume 4 |>.produce (rgbPixel s.prev r g b) 1).commit
  else (s.literalEnded 0xFE#8).commit

/-- R70: RGBA. -/
def execRgba (r g b a : Byte) (s : State) : Host.Outcome State Fault Refusal :=
  if s.fits 5 then
    ((((s.latchTag 0xFF#8).clearCnt).latchOperands [r, g, b]).consume 5 |>.produce ⟨r, g, b, a⟩ 1).commit
  else (s.literalEnded 0xFF#8).commit

end Sys2Proof.Machine
end

