-- ==== Sys2Proof/Machine/RunLength.lean ====
section
/-! DEFINITION. The meaning of RUN (rule R77). -/

namespace Sys2Proof.Machine

/-- R77: RUN. `prev` is emitted `count` times, each a full `Emit`. -/
def execRun (n : BitVec 6) (s : State) : Host.Outcome State Fault Refusal :=
  ((s.consume 1).produce s.prev (runCount n)).commit

end Sys2Proof.Machine
end

