-- ==== Sys2Proof/Machine/Dispatch.lean ====
section
/-! DEFINITION. One arm for each constructor of Instr (rules R85, R90: "a single exhaustive-match dispatch"). -/

namespace Sys2Proof.Machine

def exec (i : Instr) (s : State) : Host.Outcome State Fault Refusal :=
  match i with
  | .header m w h c cs => Sys2Proof.Machine.execHeader m w h c cs s
  | .rgb r g b => Sys2Proof.Machine.execRgb r g b s
  | .rgba r g b a => Sys2Proof.Machine.execRgba r g b a s
  | .index k => Sys2Proof.Machine.execIndex k s
  | .diff fr fg fb => Sys2Proof.Machine.execDiff fr fg fb s
  | .luma fg frg fbg => Sys2Proof.Machine.execLuma fg frg fbg s
  | .run n => Sys2Proof.Machine.execRun n s

end Sys2Proof.Machine
end

