-- ==== Sys2Proof/Machine/Engine.lean ====
section
/-! DEFINITION. The decode engine at operator level: the step of rule R85, HEADER first (R61), the end (R87), the commands
of the controller (R91, R116), and the whole decode (R86). -/

namespace Sys2Proof.Machine

/-- What the step does where the bytes at `pos` are no instruction. -/
def takeReject (r : Reject) (s : State) : Host.Outcome State Fault Refusal :=
  match r with
  | .exhausted => (s.finalise Config.strictPixelCount).commit
  | .headerEnd => s.headerEnded.commit
  | .badMagic =>
    match s.unread with
    | m0 :: m1 :: m2 :: m3 :: _ => (s.magicMismatch (beWord m0 m1 m2 m3)).commit
    | _ => s.headerEnded.commit
  | .operatorEnd b0 =>
    match classify b0 with
    | some .luma => (s.lumaEnded b0).commit
    | some .rgb => (s.literalEnded b0).commit
    | some .rgba => (s.literalEnded b0).commit
    | some .index => s.tagUnknown.commit
    | some .diff => s.tagUnknown.commit
    | some .run => s.tagUnknown.commit
    | none => s.tagUnknown.commit
  | .noTag _ => s.tagUnknown.commit

/-- R61, R85: read the item that stands at `pos` and run it. -/
def runItem (p : Position) (s : State) : Host.Outcome State Fault Refusal :=
  match decode p s.unread with
  | .instr i _ => exec i s
  | .rejected r => takeReject r s

/-- One operator-level step of a machine to which nothing is commanded: HEADER (R61), one operator or the end (R85, R87),
or nothing (R97). A header record or an operator in progress is carried to its end (R93). -/
def advance (s : State) : Host.Outcome State Fault Refusal :=
  match s.sub with
  | .idle => .next s
  | .hdr => if s.hidden.cnt = 0#4 then runItem .header s else s.finish.commit
  | .op => runItem .operator s
  | .lit => s.finish.commit
  | .luma2 => s.finish.commit
  | .emit => s.finish.commit
  | .done => .next s
  | .err => .next s

/-- R91, R116: one command of the controller, then the step. `start` while the engine is busy is ignored. -/
def command (c : Command) (s : State) : Host.Outcome State Fault Refusal :=
  match c with
  | .quiet => advance s
  | .start S => if s.busy then advance s else .next (s.present S).perDecodeReset
  | .rst => .next s.powerOnReset

/-- The command of this step, taken from the queue; an empty queue asserts nothing. -/
def stepOnce (s : State) : Host.Outcome State Fault Refusal :=
  match s.commands with
  | [] => advance s
  | c :: rest => command c (s.queue rest)

/-- `n` steps with nothing commanded. -/
def advanceFor (n : Nat) (s : State) : Host.Outcome State Fault Refusal :=
  match n with
  | 0 => .next s
  | n + 1 =>
    match advance s with
    | .next t => advanceFor n t
    | .fault r => .fault r
    | .refused r => .refused r

/-- R86 `Decode(S)` on a block in any state: the per-decode reset, then steps until the decode has ended, which takes at
most `len(S) + 1` of them (R99). -/
def decodeStream (S : List Byte) (s : State) : Host.Outcome State Fault Refusal :=
  advanceFor (S.length + 1) (s.present S).perDecodeReset

/-- Bring a machine to the place of a record, with that record's bytes next: what a load from outside does. A machine
already there keeps everything but the bytes from `pos` on. -/
def State.load (s : State) (p : Position) (bytes : List Byte) : State :=
  match p with
  | .header =>
    if s.sub = .hdr ∧ s.hidden.cnt = 0#4 then
      { s with stream := s.stream.take s.pos ++ List.replicate (s.pos - s.stream.length) 0#8 ++ bytes, commands := [] }
    else
      { s with prev := Config.prevInit, cache := Vector.replicate 64 Config.cacheInit, cursor := 0, pos := 0
               hdrValid := false, sub := .hdr, errCode := .none, hidden := { s.hidden with cnt := 0#4 }
               stream := bytes, trace := [], commands := [] }
  | .operator =>
    if s.sub = .op then
      { s with stream := s.stream.take s.pos ++ List.replicate (s.pos - s.stream.length) 0#8 ++ bytes, commands := [] }
    else
      { s with prev := Config.prevInit, cache := Vector.replicate 64 Config.cacheInit, cursor := 0, pos := 14
               hdr := { s.hdr with magic := Config.magic }, hdrValid := true, sub := .op, errCode := .none
               stream := encode (.header Config.magic s.hdr.width s.hdr.height s.hdr.channels s.hdr.colorspace) ++ bytes
               trace := [], commands := [] }

end Sys2Proof.Machine
end

