-- ==== Sys2Proof/Machine/Step.lean ====
section
/-! DEFINITION. The step of the machine (rules R9, R85, R91) and the placing of one instruction as the next to run. -/

namespace Sys2Proof.Machine

/-- One operator-level step (R9). -/
def step (s : State) : Host.Outcome State Fault Refusal := stepOnce s

/-- The state in which the very next step runs the instruction of a table word (log entry 4): HEADER at the start of the
stream, an operator after a header. -/
def State.withFetchWord (s : State) (nbits w : Nat) : State :=
  if isHeaderWord nbits w then s.load .header (headerBytesOfWord nbits w)
  else s.load .operator (operatorBytesOfWord nbits w)

end Sys2Proof.Machine
end

