-- ==== Sys2Proof/Machine/Assembly.lean ====
section
/-! DEFINITION. The spec's own assembly syntax (rules R59, R60): what each item stands for in bytes, none for an operand out
of range ("an operand out of range is an assembly error"). -/

namespace Sys2Proof.Machine

/-- R59, R60: one line of assembly. -/
inductive AsmItem where
  | header (w h c s : Nat)
  | rgb (r g b : Nat)
  | rgba (r g b a : Nat)
  | index (k : Nat)
  | diff (dr dg db : Int)
  | luma (dg drg dbg : Int)
  | run (n : Nat)
  | byte (v : Nat)
  | endMarker
  | lumaAbs (dg dr db : Int)
  | badMagic (x0 x1 x2 x3 : Nat)
  deriving DecidableEq, Repr

/-- An unsigned operand of `w` bits. -/
def asmBits (w v : Nat) : Option (BitVec w) := if v < 2 ^ w then some (BitVec.ofNat w v) else none

/-- A signed operand as the biased field of `w` bits (R53). -/
def asmBiased (w : Nat) (bias d : Int) : Option (BitVec w) :=
  if 0 ≤ d + bias ∧ d + bias < 2 ^ w then some (BitVec.ofNat w (d + bias).toNat) else none

/-- R59 `DIFF dr, dg, db`. -/
def asmDiff (dr dg db : Int) : Option Instr := do
  let fr ← asmBiased 2 Config.diffBias dr
  let fg ← asmBiased 2 Config.diffBias dg
  let fb ← asmBiased 2 Config.diffBias db
  some (.diff fr fg fb)

/-- R59 `LUMA dg, drg, dbg`. -/
def asmLuma (dg drg dbg : Int) : Option Instr := do
  let fg ← asmBiased 6 Config.lumaGBias dg
  let frg ← asmBiased 4 Config.lumaRBBias drg
  let fbg ← asmBiased 4 Config.lumaRBBias dbg
  some (.luma fg frg fbg)

/-- R59 `RUN n`, 1..62: RUN 63 and RUN 64 cannot be written. -/
def asmRun (n : Nat) : Option Instr :=
  if 1 ≤ n ∧ n ≤ 62 then some (.run (BitVec.ofNat 6 (n - Config.runBias))) else none

/-- R59: the instruction an item stands for; none for an operand out of range and for the items that are bytes. -/
def asmInstr : AsmItem → Option Instr
  | .header w h c s => do
    let w ← asmBits 32 w
    let h ← asmBits 32 h
    let c ← asmBits 8 c
    let s ← asmBits 8 s
    some (.header Config.magic w h c s)
  | .rgb r g b => do
    let r ← asmBits 8 r
    let g ← asmBits 8 g
    let b ← asmBits 8 b
    some (.rgb r g b)
  | .rgba r g b a => do
    let r ← asmBits 8 r
    let g ← asmBits 8 g
    let b ← asmBits 8 b
    let a ← asmBits 8 a
    some (.rgba r g b a)
  | .index k => (asmBits 6 k).map Instr.index
  | .diff dr dg db => asmDiff dr dg db
  | .luma dg drg dbg => asmLuma dg drg dbg
  | .run n => asmRun n
  | .byte _ => none
  | .endMarker => none
  | .lumaAbs dg dr db => asmLuma dg (dr - dg) (db - dg)
  | .badMagic _ _ _ _ => none

/-- R59, R60: the bytes of an item. -/
def assemble (item : AsmItem) : Option (List Byte) :=
  match item with
  | .byte v => (asmBits 8 v).map fun b => [b]
  | .endMarker => some [0#8, 0#8, 0#8, 0#8, 0#8, 0#8, 0#8, 1#8]
  | .badMagic x0 x1 x2 x3 => do
    let b0 ← asmBits 8 x0
    let b1 ← asmBits 8 x1
    let b2 ← asmBits 8 x2
    let b3 ← asmBits 8 x3
    if beWord b0 b1 b2 b3 = Config.magic then none else some [b0, b1, b2, b3]
  | .header w h c s => (asmInstr (.header w h c s)).map encode
  | .rgb r g b => (asmInstr (.rgb r g b)).map encode
  | .rgba r g b a => (asmInstr (.rgba r g b a)).map encode
  | .index k => (asmInstr (.index k)).map encode
  | .diff dr dg db => (asmInstr (.diff dr dg db)).map encode
  | .luma dg drg dbg => (asmInstr (.luma dg drg dbg)).map encode
  | .run n => (asmInstr (.run n)).map encode
  | .lumaAbs dg dr db => (asmInstr (.lumaAbs dg dr db)).map encode

end Sys2Proof.Machine
end

