-- ==== Sys2Proof/Safety.lean ====
section
/-! DEFINITION. The terms the statements are made in: the effect and the frame of an operator, of its failure and of
HEADER, and the invariant of rule R27 with what it takes to keep it. -/

namespace Sys2Proof.Machine

/-- Neither counter reaches its limit when `len` bytes are consumed and `n` pixels emitted (R12, R13). -/
def State.Room (s : State) (len n : Nat) : Prop :=
  s.pos + len < Config.counterLimit ∧ s.cursor + n < Config.counterLimit

/-- Pixel index `i` is one of `n` indices from the cursor on and inside the image: where OUT is written (R79). -/
def State.Writes (s : State) (n i : Nat) : Prop := s.cursor ≤ i ∧ i < s.cursor + n ∧ i < s.npix

/-- What `n` copies of `p` emitted in `s` do, in `t`, to the pixel state and to OUT (R79, R80), and to no other byte of
OUT. -/
structure Emits (s t : State) (p : Pixel) (n : Nat) : Prop where
  prev : t.prev = p
  cursor : t.cursor = s.cursor + n
  cache : ∀ k : Fin 64, t.cache.get k = if k = slotHash p then p else s.cache.get k
  written : ∀ i, s.Writes n i → t.out.readPixel i = some p
  others : ∀ a, (∀ i c, s.Writes n i → c < 4 → a ≠ outAddress i c) → t.out.readByte a = s.out.readByte a
  trace : t.trace = ((List.range n).map fun j =>
    (⟨s.cursor + j, p, decide (s.cursor + j < s.npix)⟩ : Emission)).reverse ++ s.trace

/-- The pixel state and OUT are as they were (R107). -/
structure SamePixels (s t : State) : Prop where
  prev : t.prev = s.prev
  cache : t.cache = s.cache
  cursor : t.cursor = s.cursor
  out : t.out = s.out
  trace : t.trace = s.trace

/-- What no operator writes: the header registers, the stream, the controller's queue, the free values drawn. -/
structure SameSetting (s t : State) : Prop where
  hdr : t.hdr = s.hdr
  hdrValid : t.hdrValid = s.hdrValid
  stream : t.stream = s.stream
  commands : t.commands = s.commands
  draws : t.draws = s.draws

/-- The engine and the error registers are as they were. -/
structure SameStatus (s t : State) : Prop where
  sub : t.sub = s.sub
  errCode : t.errCode = s.errCode
  errPos : t.errPos = s.errPos

/-- An operator of `len` bytes that emits `n` copies of `p` has run: `pos`, the pixel state, OUT, the hidden registers at
`hidden` (R93), and nothing else. -/
structure Completes (s t : State) (len : Nat) (p : Pixel) (n : Nat) (hidden : Hidden) : Prop where
  pos : t.pos = s.pos + len
  emits : Emits s t p n
  setting : SameSetting s t
  status : SameStatus s t
  hidden : t.hidden = hidden

/-- R103, R106, R107: the operator with tag byte `b0` was cut short by the end of the stream; every byte that was left is
consumed, no pixel state and no byte of OUT has changed. -/
structure CutShort (s t : State) (b0 : Byte) : Prop where
  pos : t.pos = s.stream.length
  sub : t.sub = .err
  errCode : t.errCode = .unexpectedEndOfStream
  errPos : t.errPos = s.pos
  pixels : SamePixels s t
  setting : SameSetting s t
  b0 : t.hidden.b0 = b0
  opPos : t.hidden.opPos = s.pos
  hbuf : t.hidden.hbuf = s.hidden.hbuf
  pend : t.hidden.pend = s.hidden.pend
  rem : t.hidden.rem = s.hidden.rem

/-- The latches of R21 that HEADER does not write. -/
structure SameLatches (s t : State) : Prop where
  b0 : t.hidden.b0 = s.hidden.b0
  lit : t.hidden.lit = s.hidden.lit
  pend : t.hidden.pend = s.hidden.pend
  rem : t.hidden.rem = s.hidden.rem
  opPos : t.hidden.opPos = s.hidden.opPos

/-- R62, R63, R106: HEADER has failed with error `e`, `n` bytes consumed; the header registers are as they were. -/
structure HeaderFails (s t : State) (e : ErrCode) (n : Nat) : Prop where
  pos : t.pos = n
  sub : t.sub = .err
  errCode : t.errCode = e
  errPos : t.errPos = 0
  pixels : SamePixels s t
  hdr : t.hdr = s.hdr
  hdrValid : t.hdrValid = s.hdrValid
  stream : t.stream = s.stream
  commands : t.commands = s.commands
  draws : t.draws = s.draws
  latches : SameLatches s t

/-- R61: HEADER has run. -/
structure HeaderLoads (s t : State) (h : Header) : Prop where
  pos : t.pos = s.pos + 14
  hdr : t.hdr = h
  hdrValid : t.hdrValid = true
  sub : t.sub = .op
  errCode : t.errCode = s.errCode
  errPos : t.errPos = s.errPos
  pixels : SamePixels s t
  stream : t.stream = s.stream
  commands : t.commands = s.commands
  draws : t.draws = s.draws
  latches : SameLatches s t

/-- The pixel last emitted to slot `k`, `CACHE_INIT` if there is none; the trace is newest first (R82). -/
def lastWithHash (k : Fin 64) (trace : List Emission) : Pixel :=
  match trace.find? fun e => slotHash e.pixel == k with
  | some e => e.pixel
  | none => Config.cacheInit

/-- The pixel last emitted, `PREV_INIT` if there is none (R11). -/
def lastPixel (trace : List Emission) : Pixel :=
  match trace with
  | [] => Config.prevInit
  | e :: _ => e.pixel

/-- The trace numbers its emissions 0, 1, 2, ..., and an OUT write was issued exactly for the indices below `npix`
(R27(f)); newest first. -/
def Numbered (npix : Nat) (trace : List Emission) : Prop :=
  match trace with
  | [] => True
  | e :: rest => e.index = rest.length ∧ e.written = decide (rest.length < npix) ∧ Numbered npix rest

/-- Sub-states in which the header has been read. -/
def SubState.afterHeader : SubState → Bool
  | .idle => false
  | .hdr => false
  | .op => true
  | .lit => true
  | .luma2 => true
  | .emit => true
  | .done => true
  | .err => false

/-- The header has been read, with the right magic (R27(a), (b)). -/
def State.HeaderRead (s : State) : Prop := s.hdrValid = true ∧ s.hdr.magic = Config.magic ∧ 14 ≤ s.pos

/-- No header, no pixel (R61, R101). -/
def State.NothingYet (s : State) : Prop := s.hdrValid = false ∧ s.cursor = 0 ∧ s.trace = []

/-- The invariant of the machine: R27, R18, the table of R100, and the latches of an item in progress. -/
structure Inv (s : State) : Prop where
  outWf : s.out.wf
  posLimit : s.pos < Config.counterLimit
  cursorLimit : s.cursor < Config.counterLimit
  posInStream : s.pos ≤ s.stream.length
  errCodeIff : s.errCode = .none ↔ s.sub ≠ .err
  noDecodeError : s.errCode ≠ .decodeError
  before : s.sub = .idle ∨ s.sub = .hdr → s.NothingYet
  after : s.sub.afterHeader = true → s.HeaderRead
  doneAtEnd : s.sub = .done → s.pos = s.stream.length
  formatError : s.errCode = .formatError → s.NothingYet ∧ s.errPos = 0 ∧ s.pos = 4
  endError : s.errCode = .unexpectedEndOfStream →
    s.pos = s.stream.length ∧ ((s.NothingYet ∧ s.errPos = 0) ∨ (s.HeaderRead ∧ 14 ≤ s.errPos ∧ s.errPos ≤ s.pos))
  numbered : Numbered s.npix s.trace
  traceLength : s.trace.length = s.cursor
  prevOfTrace : s.sub ≠ .idle → s.prev = lastPixel s.trace
  cacheOfTrace : s.sub ≠ .idle → ∀ k, s.cache.get k = lastWithHash k s.trace
  outOfTrace : ∀ e ∈ s.trace, e.written = true → s.out.readPixel e.index = some e.pixel
  headerLatch : s.sub = .hdr → s.pos = s.hidden.cnt.toNat ∧ s.hidden.cnt.toNat ≤ 13 ∧
    (4 ≤ s.hidden.cnt.toNat →
      beWord s.hidden.hbuf[0] s.hidden.hbuf[1] s.hidden.hbuf[2] s.hidden.hbuf[3] = Config.magic)
  tagOffset : s.sub = .lit ∨ s.sub = .luma2 → 14 ≤ s.hidden.opPos ∧ s.hidden.opPos < s.pos
  litLatch : s.sub = .lit →
    (s.hidden.b0 = 0xFE#8 ∧ s.hidden.cnt.toNat < 3) ∨ (s.hidden.b0 = 0xFF#8 ∧ s.hidden.cnt.toNat < 4)
  remBound : s.sub = .emit → s.hidden.rem.toNat ≤ 61

/-- A run of a decode is SAFE where it ends with a whole image: DONE, and every pixel of the image written (R88). -/
def State.WholeImage (s : State) : Prop := s.sub = .done ∧ s.short = false

end Sys2Proof.Machine
end

