-- ==== Sys2Proof/Certificates/Slice0/Obligations.lean ====
section
/-! DEFINITION. The statements for the provers, each a numbered rule of spec/ or what follows from its sections. -/

open Sys2Proof Sys2Proof.Machine

/-! ### Encoding -/

/-- Words written out from the encodings of R46 to R52 decode to the instructions they stand for. -/
def Obligations.ReferenceWordsDecode : Prop :=
  decode .header [0x71#8, 0x6F#8, 0x69#8, 0x66#8, 0x00#8, 0x00#8, 0x01#8, 0x02#8, 0x00#8, 0x03#8, 0x00#8, 0x04#8,
      0x04#8, 0x00#8] = .instr (.header 0x716F6966#32 258#32 196612#32 4#8 0#8) [] ∧
  decode .operator [0xFE#8, 0xFE#8, 0xFF#8, 0xC0#8] = .instr (.rgb 254#8 255#8 192#8) [] ∧
  decode .operator [0xFF#8, 0x0A#8, 0x14#8, 0x1E#8, 0x28#8] = .instr (.rgba 10#8 20#8 30#8 40#8) [] ∧
  decode .operator [0x0C#8, 0x0D#8] = .instr (.index 12#6) [0x0D#8] ∧
  decode .operator [0x79#8] = .instr (.diff 3#2 2#2 1#2) [] ∧
  decode .operator [0xA5#8, 0x3C#8] = .instr (.luma 37#6 3#4 12#4) [] ∧
  decode .operator [0xC5#8] = .instr (.run 5#6) []

/-- R65, R66, R67: every tag byte has exactly the tag of its range, and 0xFE and 0xFF are never RUN. -/
def Obligations.ClassifierFollowsPriority : Prop :=
  ∀ b0 : Byte, classify b0 = some (
    if b0 = 0xFE#8 then .rgb
    else if b0 = 0xFF#8 then .rgba
    else if b0.toNat ≤ 0x3F then .index
    else if b0.toNat ≤ 0x7F then .diff
    else if b0.toNat ≤ 0xBF then .luma
    else .run)

/-- R55, whose numeric pairs the spec marks as its own inference: the first matching (value, mask) row is the classifier's
tag; two different rows match one byte only where one is RUN and the other RGB or RGBA. -/
def Obligations.TagTableGivesTheClassifier : Prop :=
  (∀ b0 : Byte, classifyByTable b0 = classify b0) ∧
  ∀ b0 : Byte, ∀ x ∈ tagTable, ∀ y ∈ tagTable, b0 &&& x.mask = x.value → b0 &&& y.mask = y.value →
    x = y ∨ (x.tag = .run ∧ (y.tag = .rgb ∨ y.tag = .rgba)) ∨ (y.tag = .run ∧ (x.tag = .rgb ∨ x.tag = .rgba))

/-- R46 to R52: the bytes of a well-formed instruction, whatever follows them, decode to it and leave what follows. -/
def Obligations.DecodeInvertsEncode : Prop :=
  ∀ (i : Instr) (rest : List Byte), i.wellFormed = true → decode i.position (encode i ++ rest) = .instr i rest

/-- R46 to R52, R89: what decodes is well formed, stands at its own place, and is exactly the bytes consumed. -/
def Obligations.DecodedBytesAreTheEncoding : Prop :=
  ∀ (p : Position) (bs rest : List Byte) (i : Instr), decode p bs = .instr i rest →
    i.wellFormed = true ∧ i.position = p ∧ bs = encode i ++ rest ∧ bs.length = i.length + rest.length

/-- R56, R67, R103: operator bytes are rejected only where none is left, or where fewer operand bytes are left than the
tag asks for; never for what they are. -/
def Obligations.OperatorsAreRejectedOnlyWhenCutShort : Prop :=
  ∀ (bs : List Byte) (r : Reject), decode .operator bs = .rejected r ↔
    (bs = [] ∧ r = .exhausted) ∨
    ∃ b0 more t, bs = b0 :: more ∧ classify b0 = some t ∧ more.length < t.operandBytes ∧ r = .operatorEnd b0

/-- R59, R53: DIFF, LUMA and RUN assemble exactly in their ranges, and the assembled bytes decode to an operator with
those deltas or that count. -/
def Obligations.AssemblyMeansItsOperands : Prop :=
  (∀ dr dg db : Int,
    ((assemble (.diff dr dg db)).isSome ↔ (-2 ≤ dr ∧ dr ≤ 1) ∧ (-2 ≤ dg ∧ dg ≤ 1) ∧ (-2 ≤ db ∧ db ≤ 1)) ∧
    ∀ bs, assemble (.diff dr dg db) = some bs → ∃ fr fg fb, decode .operator bs = .instr (.diff fr fg fb) [] ∧
      diffDelta fr = dr ∧ diffDelta fg = dg ∧ diffDelta fb = db) ∧
  (∀ dg drg dbg : Int,
    ((assemble (.luma dg drg dbg)).isSome ↔ (-32 ≤ dg ∧ dg ≤ 31) ∧ (-8 ≤ drg ∧ drg ≤ 7) ∧ (-8 ≤ dbg ∧ dbg ≤ 7)) ∧
    ∀ bs, assemble (.luma dg drg dbg) = some bs → ∃ fg frg fbg, decode .operator bs = .instr (.luma fg frg fbg) [] ∧
      lumaDg fg = dg ∧ lumaDiff frg = drg ∧ lumaDiff fbg = dbg) ∧
  (∀ n : Nat,
    ((assemble (.run n)).isSome ↔ 1 ≤ n ∧ n ≤ 62) ∧
    ∀ bs, assemble (.run n) = some bs → ∃ f, decode .operator bs = .instr (.run f) [] ∧ runCount f = n)

/-! ### Arithmetic -/

/-- R74: any order and any intermediate width of at least 8 bits gives the same byte; the 8-bit forms are exact. -/
def Obligations.ComponentArithmeticIsModulo256 : Prop :=
  (∀ x y : Int, wrap8 (((wrap8 x).toNat : Int) + y) = wrap8 (x + y)) ∧
  (∀ (c : Byte) (d : Int), addDelta c d = c + BitVec.ofInt 8 d) ∧
  (∀ (c : Byte) (f : BitVec 2), addDelta c (diffDelta f) = c + f.setWidth 8 - 2#8) ∧
  ∀ (c : Byte) (d : Int), ((addDelta c d).toNat : Int) % 256 = ((c.toNat : Int) + d) % 256

/-- R78, R74(c): the hash is the sum mod 64, the sum is at most 6630, and a 6-bit datapath is exact. -/
def Obligations.HashNeedsSixBits : Prop :=
  ∀ p : Pixel,
    (slotHash p).val = (3 * p.r.toNat + 5 * p.g.toNat + 7 * p.b.toNat + 11 * p.a.toNat) % 64 ∧
    3 * p.r.toNat + 5 * p.g.toNat + 7 * p.b.toNat + 11 * p.a.toNat ≤ 6630 ∧
    (slotHash p).val = (3#6 * p.r.setWidth 6 + 5#6 * p.g.setWidth 6 + 7#6 * p.b.setWidth 6 + 11#6 * p.a.setWidth 6).toNat

/-- R16: `npix` is the exact product and fits 64 bits. -/
def Obligations.ImageSizeFitsSixtyFourBits : Prop :=
  ∀ s : State, s.npix = s.hdr.width.toNat * s.hdr.height.toNat ∧ s.npix ≤ (2 ^ 32 - 1) ^ 2 ∧ s.npix < 2 ^ 64

/-! ### The instructions: result, frame, failure -/

/-- R61, R62, R63: HEADER, for every stream length and every magic: it loads the five registers and 14 bytes are gone, or
it fails with the error, the position and the unchanged registers of the table of R63. That the hidden registers which
HEADER does not write keep their values is the model's choice (log entry 8). -/
def Obligations.HeaderLoadsOrFails : Prop :=
  ∀ (m w h : BitVec 32) (c cs : Byte) (s : State), s.pos = 0 → s.Room s.stream.length 0 →
    (14 ≤ s.stream.length → m = Config.magic →
      ∃ t, exec (.header m w h c cs) s = .next t ∧ HeaderLoads s t ⟨m, w, h, c, cs⟩) ∧
    (4 ≤ s.stream.length → m ≠ Config.magic →
      ∃ t, exec (.header m w h c cs) s = .next t ∧ HeaderFails s t .formatError 4) ∧
    (s.stream.length < 14 → m = Config.magic ∨ s.stream.length < 4 →
      ∃ t, exec (.header m w h c cs) s = .next t ∧ HeaderFails s t .unexpectedEndOfStream s.stream.length)

/-- R69: RGB emits its three literals with the alpha of `prev`, or is cut short. The values in the hidden registers after it
are the model's choice (log entry 8): R21 and V4 leave them open. -/
def Obligations.RgbEmitsLiteralsKeepingAlpha : Prop :=
  ∀ (r g b : Byte) (s : State),
    encode (.rgb r g b) = [0xFE#8, r, g, b] ∧
    (s.pos + 4 ≤ s.stream.length → s.Room 4 1 → ∃ t, exec (.rgb r g b) s = .next t ∧
      Completes s t 4 ⟨r, g, b, s.prev.a⟩ 1 { s.hidden with
        b0 := 0xFE#8, opPos := s.pos, lit := (s.hidden.lit.set 0 r).set 1 g, cnt := 2#4
        pend := ⟨r, g, b, s.prev.a⟩, rem := 0#6 }) ∧
    (s.pos < s.stream.length → s.stream.length < s.pos + 4 → s.Room 4 0 → ∃ t, exec (.rgb r g b) s = .next t ∧
      CutShort s t 0xFE#8 ∧ t.hidden.cnt.toNat = s.stream.length - (s.pos + 1))

/-- R70: RGBA emits its four literals, whatever the state, or is cut short. The values in the hidden registers after it are
the model's choice (log entry 8): R21 and V4 leave them open. -/
def Obligations.RgbaEmitsFourLiterals : Prop :=
  ∀ (r g b a : Byte) (s : State),
    encode (.rgba r g b a) = [0xFF#8, r, g, b, a] ∧
    (s.pos + 5 ≤ s.stream.length → s.Room 5 1 → ∃ t, exec (.rgba r g b a) s = .next t ∧
      Completes s t 5 ⟨r, g, b, a⟩ 1 { s.hidden with
        b0 := 0xFF#8, opPos := s.pos, lit := ((s.hidden.lit.set 0 r).set 1 g).set 2 b, cnt := 3#4
        pend := ⟨r, g, b, a⟩, rem := 0#6 }) ∧
    (s.pos < s.stream.length → s.stream.length < s.pos + 5 → s.Room 5 0 → ∃ t, exec (.rgba r g b a) s = .next t ∧
      CutShort s t 0xFF#8 ∧ t.hidden.cnt.toNat = s.stream.length - (s.pos + 1))

/-- R71: INDEX emits the pixel of slot `k` verbatim; the read comes before the write to the slot of the pixel's own hash,
so a never-written slot rewrites slot 0 with (0,0,0,0). The values in the hidden registers after it are the model's choice
(log entry 8): R21 and V4 leave them open. -/
def Obligations.IndexEmitsTheCachedPixel : Prop :=
  ∀ (k : BitVec 6) (s : State),
    encode (.index k) = [0b00#2 ++ k] ∧
    (s.Room 1 1 → ∃ t, exec (.index k) s = .next t ∧
      Completes s t 1 (s.cache.get (slotOf k)) 1 { s.hidden with pend := s.cache.get (slotOf k), rem := 0#6 } ∧
      (slotHash (s.cache.get (slotOf k)) = slotOf k → t.cache = s.cache) ∧
      (s.cache.get (slotOf k) = ⟨0#8, 0#8, 0#8, 0#8⟩ → t.cache.get 0 = ⟨0#8, 0#8, 0#8, 0#8⟩))

/-- R72: DIFF adds three deltas of -2..+1 to `prev`, each modulo 256, alpha unchanged. The values in the hidden registers
after it are the model's choice (log entry 8): R21 and V4 leave them open. -/
def Obligations.DiffAddsBiasedDeltas : Prop :=
  ∀ (fr fg fb : BitVec 2) (s : State) (p : Pixel),
    p = ⟨BitVec.ofInt 8 ((s.prev.r.toNat : Int) + ((fr.toNat : Int) - 2)),
         BitVec.ofInt 8 ((s.prev.g.toNat : Int) + ((fg.toNat : Int) - 2)),
         BitVec.ofInt 8 ((s.prev.b.toNat : Int) + ((fb.toNat : Int) - 2)), s.prev.a⟩ →
    encode (.diff fr fg fb) = [0b01#2 ++ fr ++ fg ++ fb] ∧
    (s.Room 1 1 → ∃ t, exec (.diff fr fg fb) s = .next t ∧
      Completes s t 1 p 1 { s.hidden with pend := p, rem := 0#6 })

/-- R73: LUMA adds dg to g, and dg plus the two differences to r and b, each modulo 256, alpha unchanged, or is cut
short. The values in the hidden registers after it are the model's choice (log entry 8): R21 and V4 leave them open. -/
def Obligations.LumaAddsBiasedDeltas : Prop :=
  ∀ (fg : BitVec 6) (frg fbg : BitVec 4) (s : State) (p : Pixel),
    p = ⟨BitVec.ofInt 8 ((s.prev.r.toNat : Int) + (((frg.toNat : Int) - 8) + ((fg.toNat : Int) - 32))),
         BitVec.ofInt 8 ((s.prev.g.toNat : Int) + ((fg.toNat : Int) - 32)),
         BitVec.ofInt 8 ((s.prev.b.toNat : Int) + (((fbg.toNat : Int) - 8) + ((fg.toNat : Int) - 32))), s.prev.a⟩ →
    encode (.luma fg frg fbg) = [0b10#2 ++ fg, frg ++ fbg] ∧
    (s.pos + 2 ≤ s.stream.length → s.Room 2 1 → ∃ t, exec (.luma fg frg fbg) s = .next t ∧
      Completes s t 2 p 1 { s.hidden with b0 := 0b10#2 ++ fg, opPos := s.pos, pend := p, rem := 0#6 }) ∧
    (s.pos + 1 = s.stream.length → s.Room 1 0 → ∃ t, exec (.luma fg frg fbg) s = .next t ∧
      CutShort s t (0b10#2 ++ fg) ∧ t.hidden.lit = s.hidden.lit ∧ t.hidden.cnt = s.hidden.cnt)

/-- R77: RUN emits `n + 1` copies of `prev`, each a full `Emit`: its own index, its own OUT write, its own cache write. R77
has no RUN with a field of 62 or 63, and no bytes decode to one: of these two the statement says what the meaning does with
the ill-formed term. The values in the hidden registers after it are the model's choice (log entry 8): R21 and V4 leave them
open. -/
def Obligations.RunRepeatsThePreviousPixel : Prop :=
  ∀ (n : BitVec 6) (s : State),
    encode (.run n) = [0b11#2 ++ n] ∧
    (s.Room 1 (n.toNat + 1) → ∃ t, exec (.run n) s = .next t ∧
      Completes s t 1 s.prev (n.toNat + 1) { s.hidden with pend := s.prev, rem := 0#6 })

/-- R90: an operator is the function `pixelsOf` of its operands, `prev` and the cache, and `Emit` applies the pixels in
order; it emits at least 1, and a well-formed one at most 62. -/
def Obligations.OperatorsEmitTheirPixelsInOrder : Prop :=
  ∀ (i : Instr) (s t : State), i.position = .operator → s.pos + i.length ≤ s.stream.length → exec i s = .next t →
    t.prev = ((pixelsOf s.prev s.cache i).foldl State.emit s).prev ∧
    t.cache = ((pixelsOf s.prev s.cache i).foldl State.emit s).cache ∧
    t.cursor = s.cursor + (pixelsOf s.prev s.cache i).length ∧
    t.out = ((pixelsOf s.prev s.cache i).foldl State.emit s).out ∧
    t.trace = ((pixelsOf s.prev s.cache i).foldl State.emit s).trace ∧
    1 ≤ (pixelsOf s.prev s.cache i).length ∧
    (i.wellFormed = true → (pixelsOf s.prev s.cache i).length ≤ 62)

/-- R64(a), R76: `channels` and `colorspace` change nothing: with other values of them an operator does the same and
carries them along. -/
def Obligations.ChannelsAndColorspaceSteerNothing : Prop :=
  ∀ (i : Instr) (s t : State) (c cs : Byte), i.position = .operator → exec i s = .next t →
    exec i { s with hdr := { s.hdr with channels := c, colorspace := cs } } =
      .next { t with hdr := { t.hdr with channels := c, colorspace := cs } }

/-- R104, R105: every instruction, in every state with room for it, answers a next state: no operand value, no pixel and
no length of the stream stops the machine. -/
def Obligations.EveryInstructionAnswersAState : Prop :=
  ∀ (i : Instr) (s : State), s.Room 14 64 → s.stream.length < Config.counterLimit → ∃ t, exec i s = .next t

/-- D12, V7 (the spec's "refuse"): an operator or a header that would take `pos` to `2^64`, by its own bytes or by the
bytes that are left where it is cut short, is refused by name, and so is an operator that would take `cursor` there. -/
def Obligations.CountersAreRefusedAtTheirLimit : Prop :=
  (∀ (i : Instr) (s : State), i.position = .operator → i.length = 1 ∨ s.pos + i.length ≤ s.stream.length →
    (Config.counterLimit ≤ s.pos + i.length → exec i s = .refused .positionLimit) ∧
    (s.pos + i.length < Config.counterLimit →
      Config.counterLimit ≤ s.cursor + (pixelsOf s.prev s.cache i).length → exec i s = .refused .cursorLimit)) ∧
  (∀ (i : Instr) (s : State), i.position = .operator → 1 < i.length → s.stream.length < s.pos + i.length →
    Config.counterLimit ≤ s.stream.length → exec i s = .refused .positionLimit) ∧
  ∀ (m w h : BitVec 32) (c cs : Byte) (s : State),
    (s.pos + 14 ≤ s.stream.length → m = Config.magic → Config.counterLimit ≤ s.pos + 14 →
      exec (.header m w h c cs) s = .refused .positionLimit) ∧
    (s.pos + 4 ≤ s.stream.length → m ≠ Config.magic → Config.counterLimit ≤ s.pos + 4 →
      exec (.header m w h c cs) s = .refused .positionLimit) ∧
    (s.stream.length < s.pos + 14 → m = Config.magic ∨ s.stream.length < s.pos + 4 →
      Config.counterLimit ≤ s.stream.length → exec (.header m w h c cs) s = .refused .positionLimit)

/-! ### Emit and the cache -/

/-- R79, R81: the effects of one `Emit`, and nothing else. -/
def Obligations.EmitHasFourEffects : Prop :=
  ∀ (s : State) (p : Pixel), Emits s (s.emit p) p 1 ∧ SameSetting s (s.emit p) ∧ SameStatus s (s.emit p) ∧
    (s.emit p).pos = s.pos ∧ (s.emit p).hidden = s.hidden ∧ (s.out.wf → (s.emit p).out.wf)

/-- R77(b): the cache effect of a whole RUN equals that of one `Emit(prev)`. -/
def Obligations.RunLeavesTheCacheOfOneEmit : Prop :=
  ∀ (n : BitVec 6) (s t : State), exec (.run n) s = .next t → t.cache = (s.emit s.prev).cache

/-- R77(d): a RUN that is not the first operator changes no slot's content. -/
def Obligations.LaterRunsChangeNoSlot : Prop :=
  ∀ (n : BitVec 6) (s t : State), Inv s → s.sub = .op → 0 < s.cursor → exec (.run n) s = .next t → t.cache = s.cache

/-- R123, R71(d): an INDEX of the slot of the pixel emitted just before it emits that pixel. -/
def Obligations.IndexSeesThePixelJustEmitted : Prop :=
  ∀ (s : State) (p : Pixel) (k : BitVec 6), slotOf k = slotHash p → (s.emit p).Room 1 1 →
    ∃ t, exec (.index k) (s.emit p) = .next t ∧ Emits (s.emit p) t p 1 ∧ t.cache = (s.emit p).cache

/-! ### The engine -/

/-- R85, R61, R91: where the bytes at `pos` decode, the step is `exec` of the instruction; a queue of commands loses its
head, and `start` is ignored while the engine is busy. -/
def Obligations.StepRunsTheDecodedInstruction : Prop :=
  ∀ (s : State) (i : Instr) (rest : List Byte),
    (s.sub = .op ∧ decode .operator s.unread = .instr i rest) ∨
      (s.sub = .hdr ∧ s.hidden.cnt = 0#4 ∧ decode .header s.unread = .instr i rest) →
    (s.commands = [] → step s = exec i s) ∧
    (∀ q, s.commands = .quiet :: q → step s = exec i (s.queue q)) ∧
    ∀ S q, s.commands = .start S :: q → step s = exec i (s.queue q)

/-- R87: exhaustion at an operator boundary is DONE, whatever the cursor, and changes nothing else; and a decode comes to
DONE in no other way: not by its cursor, not by a byte pattern. -/
def Obligations.ExhaustionAtABoundaryIsDone : Prop :=
  (∀ s : State, s.sub = .op → s.commands = [] → s.Room 0 0 → s.pos = s.stream.length →
    step s = .next { s with sub := .done }) ∧
  ∀ s t : State, Inv s → s.sub ≠ .done → step s = .next t →
    (t.sub = .done ↔ s.sub = .op ∧ s.pos = s.stream.length ∧ s.commands.head? ≠ some .rst) ∧
    (t.sub = .done → t.pos = t.stream.length ∧ t.errCode = .none)

/-- R103, R107: a stream that ends inside an operator takes UnexpectedEndOfStream at the step: RGB iff fewer than 3 bytes
follow its tag, RGBA fewer than 4, LUMA none; INDEX, DIFF and RUN never. What the hidden registers hold in ERROR is the
model's choice (log entry 8). -/
def Obligations.CutShortOperatorsTakeUnexpectedEnd : Prop :=
  ∀ (s : State) (b0 : Byte) (more : List Byte) (tag : Tag), s.sub = .op → s.commands = [] → s.unread = b0 :: more →
    classify b0 = some tag → s.stream.length < Config.counterLimit → s.cursor < Config.counterLimit →
    (more.length < tag.operandBytes → ∃ t, step s = .next t ∧ CutShort s t b0) ∧
    (tag.operandBytes ≤ more.length → ∀ t, step s = .next t → t.sub = .op ∧ t.errCode = s.errCode)

/-- R63: the four rows of the table, at the step, for any stream of any length; the registers of its last row by R61 and
R35. The magic's bytes are PRESUMED (log entry 1, GK1); that the hidden registers which HEADER does not write keep their values
is the model's choice (log entry 8). -/
def Obligations.HeaderStepFollowsTheTable : Prop :=
  ∀ s : State, s.sub = .hdr → s.hidden.cnt = 0#4 → s.pos = 0 → s.commands = [] → s.Room s.stream.length 0 →
    (s.stream.length < 4 →
      ∃ t, step s = .next t ∧ HeaderFails s t .unexpectedEndOfStream s.stream.length) ∧
    (4 ≤ s.stream.length → s.stream.take 4 ≠ [0x71#8, 0x6F#8, 0x69#8, 0x66#8] →
      ∃ t, step s = .next t ∧ HeaderFails s t .formatError 4) ∧
    (4 ≤ s.stream.length → s.stream.length < 14 → s.stream.take 4 = [0x71#8, 0x6F#8, 0x69#8, 0x66#8] →
      ∃ t, step s = .next t ∧ HeaderFails s t .unexpectedEndOfStream s.stream.length) ∧
    ∀ w0 w1 w2 w3 h0 h1 h2 h3 c cs rest, s.stream = [0x71#8, 0x6F#8, 0x69#8, 0x66#8, w0, w1, w2, w3, h0, h1, h2, h3,
        c, cs] ++ rest →
      ∃ t, step s = .next t ∧ HeaderLoads s t ⟨0x716F6966#32, w0 ++ w1 ++ w2 ++ w3, h0 ++ h1 ++ h2 ++ h3, c, cs⟩

/-- R106: an error writes `err_code`, `err_pos` and the state, and nothing else; the `error` output is high and stays so
while nothing is commanded. -/
def Obligations.ErrorEntryWritesThreeRegisters : Prop :=
  ∀ (s : State) (e : ErrCode) (q : Nat),
    (s.raise e q).error = true ∧ (s.commands = [] → step (s.raise e q) = .next (s.raise e q)) ∧
    (s.raise e q).errCode = e ∧ (s.raise e q).errPos = q ∧ (s.raise e q).state = .error ∧
    SamePixels s (s.raise e q) ∧ SameSetting s (s.raise e q) ∧ (s.raise e q).pos = s.pos ∧
    (s.raise e q).hidden = s.hidden

/-- R107: whatever the state, a step that enters ERROR has changed no pixel state and no byte of OUT. -/
def Obligations.ErrorsArePrecise : Prop :=
  ∀ s t : State, step s = .next t → t.sub = .err → s.sub ≠ .err → SamePixels s t

/-- R67, R102: the classifier never answers `none`, which the spec marks as its own inference from R65, and no step and no
clock edge, in any state, raises DecodeError, which is the property of D20 (log entry 18, DEDUCED). -/
def Obligations.NoStepRaisesDecodeError : Prop :=
  (∀ b0 : Byte, classify b0 ≠ none) ∧
  ∀ s : State, s.errCode ≠ .decodeError →
    (∀ t, step s = .next t → t.errCode ≠ .decodeError) ∧ ∀ i : Inputs, (s.transition i).errCode ≠ .decodeError

/-- R97, R95: IDLE, DONE and ERROR hold: without a command a step, and without `rst` and `start` a clock edge, changes
nothing, whatever the channels do. -/
def Obligations.EndedDecodesHold : Prop :=
  ∀ s : State, s.sub = .idle ∨ s.sub = .done ∨ s.sub = .err →
    (s.commands = [] → step s = .next s) ∧
    ∀ i : Inputs, i.rst = false → i.start = false → s.transition i = s ∧ s.inReady = false ∧ s.outValid = false

/-- R91, R117, R119: `start`, accepted in IDLE, DONE and ERROR, resets the decode; OUT is not touched. -/
def Obligations.StartResetsTheDecode : Prop :=
  ∀ (s : State) (S : List Byte) (q : List Command), s.sub = .idle ∨ s.sub = .done ∨ s.sub = .err →
    s.commands = .start S :: q → ∃ t, step s = .next t ∧ t.prev = ⟨0#8, 0#8, 0#8, 255#8⟩ ∧
      (∀ k : Fin 64, t.cache.get k = ⟨0#8, 0#8, 0#8, 0#8⟩) ∧ t.cursor = 0 ∧ t.pos = 0 ∧ t.hdrValid = false ∧
      t.errCode = .none ∧ t.state = .header ∧ t.sub = .hdr ∧ t.hidden.cnt = 0#4 ∧ t.stream = S ∧ t.out = s.out ∧
      t.commands = q

/-- R116, R119: `rst`, in any state and whatever else is asserted, goes to IDLE; OUT and the byte source are not
touched; that this holds of OUT even in a cycle of an output handshake is the model's choice (log entry 21). -/
def Obligations.RstGoesToIdle : Prop :=
  ∀ s : State,
    (∀ q, s.commands = .rst :: q → ∃ t, step s = .next t ∧ t.state = .idle ∧ t.cursor = 0 ∧ t.pos = 0 ∧
      t.hdrValid = false ∧ t.errCode = .none ∧ t.inReady = false ∧ t.outValid = false ∧ t.out = s.out ∧
      t.stream = s.stream ∧ t.commands = q) ∧
    ∀ i : Inputs, i.rst = true → ∃ t, tick i s = .next t ∧ t.sub = .idle ∧ t.cursor = 0 ∧ t.pos = 0 ∧
      t.hdrValid = false ∧ t.errCode = .none ∧ t.inReady = false ∧ t.outValid = false ∧ t.out = s.out ∧
      t.stream = s.stream

/-- R26, column "After `rst`": the values the spec gives; the last clause, that OUT lists nothing, is the model's choice
(log entry 2). -/
def Obligations.ResetHasTheSpecsValues : Prop :=
  State.reset.state = .idle ∧ State.reset.sub = .idle ∧ State.reset.cursor = 0 ∧ State.reset.pos = 0 ∧
  State.reset.hdrValid = false ∧ State.reset.errCode = .none ∧ State.reset.out = []

/-- R15, R61, R111: only HEADER, `start` and `rst` write the header registers. -/
def Obligations.HeaderRegistersAreWrittenOnce : Prop :=
  ∀ s t : State, s.sub ≠ .hdr → s.commands = [] → step s = .next t →
    t.hdr = s.hdr ∧ t.hdrValid = s.hdrValid ∧ t.stream = s.stream

/-- R12, R29, R99: without a command a step never moves `pos` back or past the end of the stream. From HEADER or
AWAIT_OPCODE it consumes a byte or ends the decode; only from the middle of an operator whose bytes are all read, where no
operator-level step stands (log entry 9), does it emit pixels instead. -/
def Obligations.StepsConsumeOrEnd : Prop :=
  ∀ s t : State, s.commands = [] → s.pos ≤ s.stream.length → step s = .next t →
    s.pos ≤ t.pos ∧ t.pos ≤ t.stream.length ∧ t.stream = s.stream ∧
    (s.busy = true → s.sub ≠ .emit → s.pos < t.pos ∨ t.sub = .done ∨ t.sub = .err) ∧
    (s.sub = .emit → s.atBoundary = false ∧ s.cursor < t.cursor)

/-- R31, R44: no step touches a byte of OUT outside the image. -/
def Obligations.OutIsTouchedOnlyInsideTheImage : Prop :=
  ∀ s t : State, step s = .next t → ∀ a, outAddress s.npix 0 ≤ a → t.out.readByte a = s.out.readByte a

/-- R20: the flags are the functions of the state that the table defines, and exactly one of idle, busy, done and error
holds. -/
def Obligations.StatusFlagsPartitionTheStates : Prop :=
  ∀ s : State,
    (s.done = true ↔ s.state = .done) ∧ (s.error = true ↔ s.state = .error) ∧
    (s.busy = true ↔ s.state = .header ∨ s.state = .awaitOpcode) ∧
    (s.short = true ↔ s.hdrValid = true ∧ s.cursor < s.npix) ∧
    (s.busy = true → s.done = false ∧ s.error = false) ∧
    (s.state = .idle ↔ s.busy = false ∧ s.done = false ∧ s.error = false)

/-! ### The invariant -/

/-- The invariant holds at reset. -/
def Obligations.InvariantHoldsAtReset : Prop := Inv State.reset

/-- R27, R18, R100: every step keeps the invariant. -/
def Obligations.StepKeepsInvariant : Prop := ∀ s t : State, Inv s → step s = .next t → Inv t

/-- R27 at the clock: every edge of the block, whatever an obeying environment drives, keeps the invariant. -/
def Obligations.ClockKeepsInvariant : Prop :=
  ∀ (S : List Byte) (i : Inputs) (b b' : Bench), Inv b.machine → clock S i b = .next b' → Inv b'.machine

/-- R84: the state graph: which states follow which, and by what. -/
def Obligations.StepFollowsTheStateGraph : Prop :=
  ∀ s t : State, Inv s → step s = .next t →
    (s.commands.head? = some .rst → t.state = .idle) ∧
    (s.commands.head? ≠ some .rst →
      (s.state = .idle → t.state = .idle ∨ (t.state = .header ∧ ∃ S, s.commands.head? = some (.start S))) ∧
      (s.state = .done → t.state = .done ∨ (t.state = .header ∧ ∃ S, s.commands.head? = some (.start S))) ∧
      (s.state = .error → t.state = .error ∨ (t.state = .header ∧ ∃ S, s.commands.head? = some (.start S))) ∧
      (s.state = .header →
        (t.state = .awaitOpcode ∧ t.pos = 14 ∧ t.hdr.magic = Config.magic) ∨
        (t.state = .error ∧ t.errCode = .formatError ∧ t.pos = 4) ∨
        (t.state = .error ∧ t.errCode = .unexpectedEndOfStream ∧ t.pos = t.stream.length ∧ t.pos < 14)) ∧
      (s.state = .awaitOpcode →
        t.state = .awaitOpcode ∨ (t.state = .done ∧ s.sub = .op ∧ s.pos = s.stream.length) ∨
        (t.state = .error ∧ t.errCode = .unexpectedEndOfStream ∧ t.pos = t.stream.length)))

/-- R27(a) to (f), which the spec marks as its own inference, and R82, read from the invariant, in AWAIT_OPCODE and DONE. The
`Emit` calls are the model's record of them (log entry 15). -/
def Obligations.InvariantGivesTheReachableFacts : Prop :=
  ∀ s : State, Inv s → s.state = .awaitOpcode ∨ s.state = .done →
    (s.hdrValid = true ∧ s.hdr.magic = Config.magic) ∧ (14 ≤ s.pos ∧ s.pos ≤ s.stream.length) ∧
    (s.cursor = 0 → s.prev = Config.prevInit ∧ ∀ k : Fin 64, s.cache.get k = Config.cacheInit) ∧
    (0 < s.cursor → s.cache.get (slotHash s.prev) = s.prev) ∧
    (∀ k : Fin 64, s.cache.get k = lastWithHash k s.trace ∧
      (s.cache.get k = Config.cacheInit ∨ slotHash (s.cache.get k) = k)) ∧
    s.cursor = s.trace.length ∧
    s.outWrites = (s.trace.reverse.filter fun e => decide (e.index < s.npix)).map (fun e => (e.index, e.pixel)) ∧
    (s.outWrites.map Prod.fst).Pairwise (· < ·)

/-- R31, R27(f): the OUT writes of a decode are at 0, 1, 2, ... up to `min(cursor, npix) - 1`, in that order, each
once. -/
def Obligations.OutWritesAscendWithoutGaps : Prop :=
  ∀ s : State, Inv s → s.outWrites.map Prod.fst = List.range (min s.cursor s.npix)

/-- R33, R107: below `min(cursor, npix)` the image reads as the pixel that was emitted there; the entries after it have no
value, and an index outside the image does not exist. -/
def Obligations.TheWrittenPartOfTheImageReads : Prop :=
  ∀ (s : State) (i : Nat), Inv s → s.hdrValid = true →
    (i < s.cursor → i < s.npix → ∃ p, s.readOut i = .next p ∧ (i, p) ∈ s.outWrites) ∧
    (s.cursor ≤ i → i < s.npix → s.readOut i = .fault (.outEntryUnwritten i)) ∧
    (s.npix ≤ i → s.readOut i = .fault (.outIndexOutside i))

/-! ### The whole decode -/

/-- R99, R86: a decode ends within `len(S) + 1` steps, in DONE or ERROR, having emitted at most 62 pixels for each byte
after the header. -/
def Obligations.DecodeEndsWithinTheBound : Prop :=
  ∀ (S : List Byte) (s : State), 62 * S.length < Config.counterLimit →
    ∃ t, decodeStream S s = .next t ∧ (t.sub = .done ∨ t.sub = .err) ∧ t.cursor ≤ 62 * (S.length - 14) ∧
      (t.sub = .done → t.pos = S.length)

/-- R86, R98, R120, which the spec marks as its own inference: the result of a decode depends on its stream alone: started from any two states, two decodes of the
same stream give the same result, the same `prev` and cache, and the same pixels in the image. -/
def Obligations.DecodeDependsOnTheStreamOnly : Prop :=
  ∀ (S : List Byte) (s₁ s₂ t₁ : State), decodeStream S s₁ = .next t₁ →
    ∃ t₂, decodeStream S s₂ = .next t₂ ∧ t₂.report = t₁.report ∧ t₂.prev = t₁.prev ∧ t₂.cache = t₁.cache ∧
      (t₁.hdrValid = true → ∀ i, t₂.readOut i = t₁.readOut i)

/-! ### The cycle-level machine -/

/-- R94, R96: from a boundary the reference machine, without a stall, does in the cycles of R96 exactly what the operator
does in one step. That the hidden registers agree too is the model's choice (log entry 8); R94 does not ask for it. -/
def Obligations.OperatorsTakeTheirCycles : Prop :=
  ∀ (s : State) (i : Instr) (rest : List Byte),
    (s.sub = .op ∧ decode .operator s.unread = .instr i rest) ∨
      (s.sub = .hdr ∧ s.hidden.cnt = 0#4 ∧ decode .header s.unread = .instr i rest) →
    exec i s = (s.driveFor (edgesOf i)).commit

/-- R94: one edge under an environment that obeys R39 and does not command is a stall, or the first edge of the item the
step runs, or one more edge of the item in progress. That the hidden registers agree too is the model's choice (log entry 8),
the end of an item in progress is `State.finish` (log entry 9, DEDUCED), and the statement covers latch values that no run
reaches (log entry 17). -/
def Obligations.ClockRefinesStep : Prop :=
  ∀ (i : Inputs) (b : Bench) (t : State), b.obeys i = true → i.rst = false → b.machine.takesStart i = false →
    b.machine.pos ≤ b.machine.stream.length → tick i b.machine = .next t →
    t = b.machine ∨
    (b.machine.atBoundary = true ∧ advance b.machine = t.finish.commit) ∨
    (b.machine.atBoundary = false ∧ t.finish = b.machine.finish)

/-- R95: a cycle in which the block waits changes no state element. -/
def Obligations.StallsChangeNothing : Prop :=
  ∀ (i : Inputs) (s : State), i.rst = false →
    (s.inReady = true → i.inValid = false → i.inEos = false → s.transition i = s) ∧
    (s.outValid = true → i.outReady = false → s.transition i = s)

/-- R39, R40, R92: a byte is consumed exactly in a cycle of the input handshake, OUT is written exactly in a cycle of the
output handshake, with the pixel and the index on the ports, and the two never happen in one cycle. -/
def Obligations.HandshakesMoveBytesAndPixels : Prop :=
  ∀ (i : Inputs) (s : State), i.rst = false → s.takesStart i = false →
    (s.transition i).pos = s.pos + (if s.inReady && i.inValid then 1 else 0) ∧
    (s.transition i).out =
      (if s.outValid && i.outReady then s.out.writePixel s.cursor s.hidden.pend else s.out) ∧
    (s.outValid = true → s.inReady = false ∧ s.cursor < s.npix ∧
      s.outputs.outPixel = some (pack s.hidden.pend) ∧ s.outputs.outIndex = some (BitVec.ofNat 64 s.cursor))

/-- R39, D24 (the spec's "a model refuses such an environment"): `in_eos` with `in_valid`, a byte other than `S[pos]`,
`in_eos` before the end, `in_eos` withdrawn, `in_data` changed while a byte is offered and not accepted; and what the block
remembers of a cycle for the last two is what was driven in it. -/
def Obligations.ProtocolBreachesAreRefused : Prop :=
  (∀ (S : List Byte) (i : Inputs) (b : Bench),
    (i.inValid = true ∧ i.inEos = true) ∨
    (b.machine.busy = true ∧ i.inValid = true ∧ b.machine.unread.head? ≠ some i.inData) ∨
    (b.machine.busy = true ∧ i.inEos = true ∧ b.machine.unread ≠ []) ∨
    (i.rst = false ∧ b.machine.takesStart i = false ∧ b.channel.eosHeld = true ∧ i.inEos = false) ∨
    (i.rst = false ∧ b.machine.takesStart i = false ∧ i.inValid = true ∧
      ∃ d, b.channel.offered = some d ∧ d ≠ i.inData) →
    clock S i b = .refused .channelProtocol) ∧
  ∀ (S : List Byte) (i : Inputs) (b b' : Bench), clock S i b = .next b' → i.rst = false →
    b.machine.takesStart i = false →
    b'.channel.eosHeld = i.inEos ∧
    (b'.channel.offered = if i.inValid = true ∧ b.machine.inReady = false then some i.inData else none)
end

