-- ==== Sys2Proof/Laws/Encoding.lean ====
section
/-! SUPPORT. The small lemmas of the encoding tables: words and bytes, tag bytes and their fields, both ways. -/

namespace Sys2Proof

/-- Four big-endian bytes of a word make the word. -/
@[simp] theorem beWord_beByte (w : BitVec 32) :
    beWord (beByte w 0) (beByte w 1) (beByte w 2) (beByte w 3) = w := by
  apply BitVec.eq_of_getLsbD_eq
  intro i hi
  simp only [beWord, beByte, BitVec.getLsbD_append, BitVec.getLsbD_extractLsb']
  by_cases h₁ : i < 8
  · simp [h₁]
  · by_cases h₂ : i < 16
    · have h : i - 8 < 8 := by omega
      simp [h₁, h]
      congr 1
      omega
    · by_cases h₃ : i < 24
      · have h : ¬ i - 8 < 8 := by omega
        have h' : i - 8 - 8 < 8 := by omega
        simp [h₁, h, h']
        congr 1
        omega
      · have h : ¬ i - 8 < 8 := by omega
        have h' : ¬ i - 8 - 8 < 8 := by omega
        have h'' : i - 8 - 8 - 8 < 8 := by omega
        simp [h₁, h, h', h'']
        congr 1
        omega

/-- The big-endian bytes of a word made of four bytes are those bytes. -/
@[simp] theorem beBytes_beWord (x0 x1 x2 x3 : Byte) : beBytes (beWord x0 x1 x2 x3) = [x0, x1, x2, x3] := by
  simp only [beBytes, List.cons.injEq, and_true]
  refine ⟨?_, ?_, ?_, ?_⟩ <;>
  · apply BitVec.eq_of_getLsbD_eq
    intro i hi
    interval_cases i <;>
      simp only [beWord, beByte, BitVec.getLsbD_append, BitVec.getLsbD_extractLsb'] <;> simp

/-! ### Encoded tag bytes are classified as their own tag, and give their fields back -/

theorem classify_indexTag : ∀ k : BitVec 6, classify (indexTag k) = some .index ∧ (indexTag k).extractLsb' 0 6 = k := by
  decide

theorem classify_diffTag : ∀ fr fg fb : BitVec 2, classify (diffTag fr fg fb) = some .diff ∧
    (diffTag fr fg fb).extractLsb' 4 2 = fr ∧ (diffTag fr fg fb).extractLsb' 2 2 = fg ∧
    (diffTag fr fg fb).extractLsb' 0 2 = fb := by decide

theorem classify_lumaTag : ∀ fg : BitVec 6, classify (lumaTag fg) = some .luma ∧ (lumaTag fg).extractLsb' 0 6 = fg := by
  decide

theorem lumaByte_fields : ∀ frg fbg : BitVec 4, (lumaByte frg fbg).extractLsb' 4 4 = frg ∧
    (lumaByte frg fbg).extractLsb' 0 4 = fbg := by decide

/-- RUN needs its field at most 61: the two bytes above it are RGB and RGBA (R66). -/
theorem classify_runTag : ∀ n : BitVec 6, n.toNat ≤ 61 → classify (runTag n) = some .run := by decide

theorem runTag_field : ∀ n : BitVec 6, (runTag n).extractLsb' 0 6 = n := by decide

/-! ### A byte classified as a tag is that tag's encoding of its own fields -/

theorem classify_ne_none : ∀ b : Byte, classify b ≠ none := by decide

theorem eq_of_classify_rgb : ∀ b : Byte, classify b = some .rgb → b = 0xFE#8 := by decide

theorem eq_of_classify_rgba : ∀ b : Byte, classify b = some .rgba → b = 0xFF#8 := by decide

theorem eq_of_classify_index : ∀ b : Byte, classify b = some .index → b = indexTag (b.extractLsb' 0 6) := by decide

theorem eq_of_classify_diff : ∀ b : Byte, classify b = some .diff →
    b = diffTag (b.extractLsb' 4 2) (b.extractLsb' 2 2) (b.extractLsb' 0 2) := by decide

theorem eq_of_classify_luma : ∀ b : Byte, classify b = some .luma → b = lumaTag (b.extractLsb' 0 6) := by decide

theorem eq_of_classify_run : ∀ b : Byte, classify b = some .run →
    b = runTag (b.extractLsb' 0 6) ∧ (b.extractLsb' 0 6).toNat ≤ 61 := by decide

theorem eq_lumaByte : ∀ b : Byte, b = lumaByte (b.extractLsb' 4 4) (b.extractLsb' 0 4) := by decide

end Sys2Proof
end

