-- ==== Sys2Proof/Laws/State.lean ====
section
/-! SUPPORT. One lemma for each field after each update of the state, true by rfl, so that no proof unfolds a record
update. The two resets have only the fields the spec gives a value, and those they leave alone. -/

namespace Sys2Proof.Machine

theorem State.inside_iff (s : State) : s.inside = true ↔ s.cursor < s.npix := by simp [State.inside]

theorem State.inside_eq_false_iff (s : State) : s.inside = false ↔ s.npix ≤ s.cursor := by simp [State.inside]

/-! ### `consume` -/

@[simp] theorem State.consume_prev (s : State) (n : Nat) : (s.consume n).prev = s.prev := rfl
@[simp] theorem State.consume_cache (s : State) (n : Nat) : (s.consume n).cache = s.cache := rfl
@[simp] theorem State.consume_cursor (s : State) (n : Nat) : (s.consume n).cursor = s.cursor := rfl
@[simp] theorem State.consume_pos (s : State) (n : Nat) : (s.consume n).pos = s.pos + n := rfl
@[simp] theorem State.consume_hdr (s : State) (n : Nat) : (s.consume n).hdr = s.hdr := rfl
@[simp] theorem State.consume_hdrValid (s : State) (n : Nat) : (s.consume n).hdrValid = s.hdrValid := rfl
@[simp] theorem State.consume_sub (s : State) (n : Nat) : (s.consume n).sub = s.sub := rfl
@[simp] theorem State.consume_errCode (s : State) (n : Nat) : (s.consume n).errCode = s.errCode := rfl
@[simp] theorem State.consume_errPos (s : State) (n : Nat) : (s.consume n).errPos = s.errPos := rfl
@[simp] theorem State.consume_hidden (s : State) (n : Nat) : (s.consume n).hidden = s.hidden := rfl
@[simp] theorem State.consume_stream (s : State) (n : Nat) : (s.consume n).stream = s.stream := rfl
@[simp] theorem State.consume_out (s : State) (n : Nat) : (s.consume n).out = s.out := rfl
@[simp] theorem State.consume_commands (s : State) (n : Nat) : (s.consume n).commands = s.commands := rfl
@[simp] theorem State.consume_trace (s : State) (n : Nat) : (s.consume n).trace = s.trace := rfl
@[simp] theorem State.consume_draws (s : State) (n : Nat) : (s.consume n).draws = s.draws := rfl
@[simp] theorem State.consume_npix (s : State) (n : Nat) : (s.consume n).npix = s.npix := rfl
@[simp] theorem State.consume_inside (s : State) (n : Nat) : (s.consume n).inside = s.inside := rfl

/-! ### `consumeAll` -/

@[simp] theorem State.consumeAll_prev (s : State) : s.consumeAll.prev = s.prev := rfl
@[simp] theorem State.consumeAll_cache (s : State) : s.consumeAll.cache = s.cache := rfl
@[simp] theorem State.consumeAll_cursor (s : State) : s.consumeAll.cursor = s.cursor := rfl
@[simp] theorem State.consumeAll_pos (s : State) : s.consumeAll.pos = s.stream.length := rfl
@[simp] theorem State.consumeAll_hdr (s : State) : s.consumeAll.hdr = s.hdr := rfl
@[simp] theorem State.consumeAll_hdrValid (s : State) : s.consumeAll.hdrValid = s.hdrValid := rfl
@[simp] theorem State.consumeAll_sub (s : State) : s.consumeAll.sub = s.sub := rfl
@[simp] theorem State.consumeAll_errCode (s : State) : s.consumeAll.errCode = s.errCode := rfl
@[simp] theorem State.consumeAll_errPos (s : State) : s.consumeAll.errPos = s.errPos := rfl
@[simp] theorem State.consumeAll_hidden (s : State) : s.consumeAll.hidden = s.hidden := rfl
@[simp] theorem State.consumeAll_stream (s : State) : s.consumeAll.stream = s.stream := rfl
@[simp] theorem State.consumeAll_out (s : State) : s.consumeAll.out = s.out := rfl
@[simp] theorem State.consumeAll_commands (s : State) : s.consumeAll.commands = s.commands := rfl
@[simp] theorem State.consumeAll_trace (s : State) : s.consumeAll.trace = s.trace := rfl
@[simp] theorem State.consumeAll_draws (s : State) : s.consumeAll.draws = s.draws := rfl
@[simp] theorem State.consumeAll_npix (s : State) : s.consumeAll.npix = s.npix := rfl
@[simp] theorem State.consumeAll_inside (s : State) : s.consumeAll.inside = s.inside := rfl

/-! ### `latchTag` -/

@[simp] theorem State.latchTag_prev (s : State) (b0 : Byte) : (s.latchTag b0).prev = s.prev := rfl
@[simp] theorem State.latchTag_cache (s : State) (b0 : Byte) : (s.latchTag b0).cache = s.cache := rfl
@[simp] theorem State.latchTag_cursor (s : State) (b0 : Byte) : (s.latchTag b0).cursor = s.cursor := rfl
@[simp] theorem State.latchTag_pos (s : State) (b0 : Byte) : (s.latchTag b0).pos = s.pos := rfl
@[simp] theorem State.latchTag_hdr (s : State) (b0 : Byte) : (s.latchTag b0).hdr = s.hdr := rfl
@[simp] theorem State.latchTag_hdrValid (s : State) (b0 : Byte) : (s.latchTag b0).hdrValid = s.hdrValid := rfl
@[simp] theorem State.latchTag_sub (s : State) (b0 : Byte) : (s.latchTag b0).sub = s.sub := rfl
@[simp] theorem State.latchTag_errCode (s : State) (b0 : Byte) : (s.latchTag b0).errCode = s.errCode := rfl
@[simp] theorem State.latchTag_errPos (s : State) (b0 : Byte) : (s.latchTag b0).errPos = s.errPos := rfl
@[simp] theorem State.latchTag_hidden (s : State) (b0 : Byte) :
    (s.latchTag b0).hidden = { s.hidden with b0 := b0, opPos := s.pos } := rfl
@[simp] theorem State.latchTag_stream (s : State) (b0 : Byte) : (s.latchTag b0).stream = s.stream := rfl
@[simp] theorem State.latchTag_out (s : State) (b0 : Byte) : (s.latchTag b0).out = s.out := rfl
@[simp] theorem State.latchTag_commands (s : State) (b0 : Byte) : (s.latchTag b0).commands = s.commands := rfl
@[simp] theorem State.latchTag_trace (s : State) (b0 : Byte) : (s.latchTag b0).trace = s.trace := rfl
@[simp] theorem State.latchTag_draws (s : State) (b0 : Byte) : (s.latchTag b0).draws = s.draws := rfl
@[simp] theorem State.latchTag_npix (s : State) (b0 : Byte) : (s.latchTag b0).npix = s.npix := rfl
@[simp] theorem State.latchTag_inside (s : State) (b0 : Byte) : (s.latchTag b0).inside = s.inside := rfl

/-! ### `clearCnt` -/

@[simp] theorem State.clearCnt_prev (s : State) : s.clearCnt.prev = s.prev := rfl
@[simp] theorem State.clearCnt_cache (s : State) : s.clearCnt.cache = s.cache := rfl
@[simp] theorem State.clearCnt_cursor (s : State) : s.clearCnt.cursor = s.cursor := rfl
@[simp] theorem State.clearCnt_pos (s : State) : s.clearCnt.pos = s.pos := rfl
@[simp] theorem State.clearCnt_hdr (s : State) : s.clearCnt.hdr = s.hdr := rfl
@[simp] theorem State.clearCnt_hdrValid (s : State) : s.clearCnt.hdrValid = s.hdrValid := rfl
@[simp] theorem State.clearCnt_sub (s : State) : s.clearCnt.sub = s.sub := rfl
@[simp] theorem State.clearCnt_errCode (s : State) : s.clearCnt.errCode = s.errCode := rfl
@[simp] theorem State.clearCnt_errPos (s : State) : s.clearCnt.errPos = s.errPos := rfl
@[simp] theorem State.clearCnt_hidden (s : State) : s.clearCnt.hidden = { s.hidden with cnt := 0#4 } := rfl
@[simp] theorem State.clearCnt_stream (s : State) : s.clearCnt.stream = s.stream := rfl
@[simp] theorem State.clearCnt_out (s : State) : s.clearCnt.out = s.out := rfl
@[simp] theorem State.clearCnt_commands (s : State) : s.clearCnt.commands = s.commands := rfl
@[simp] theorem State.clearCnt_trace (s : State) : s.clearCnt.trace = s.trace := rfl
@[simp] theorem State.clearCnt_draws (s : State) : s.clearCnt.draws = s.draws := rfl
@[simp] theorem State.clearCnt_npix (s : State) : s.clearCnt.npix = s.npix := rfl
@[simp] theorem State.clearCnt_inside (s : State) : s.clearCnt.inside = s.inside := rfl

/-! ### `latchOperand` -/

@[simp] theorem State.latchOperand_prev (s : State) (b : Byte) : (s.latchOperand b).prev = s.prev := rfl
@[simp] theorem State.latchOperand_cache (s : State) (b : Byte) : (s.latchOperand b).cache = s.cache := rfl
@[simp] theorem State.latchOperand_cursor (s : State) (b : Byte) : (s.latchOperand b).cursor = s.cursor := rfl
@[simp] theorem State.latchOperand_pos (s : State) (b : Byte) : (s.latchOperand b).pos = s.pos := rfl
@[simp] theorem State.latchOperand_hdr (s : State) (b : Byte) : (s.latchOperand b).hdr = s.hdr := rfl
@[simp] theorem State.latchOperand_hdrValid (s : State) (b : Byte) : (s.latchOperand b).hdrValid = s.hdrValid := rfl
@[simp] theorem State.latchOperand_sub (s : State) (b : Byte) : (s.latchOperand b).sub = s.sub := rfl
@[simp] theorem State.latchOperand_errCode (s : State) (b : Byte) : (s.latchOperand b).errCode = s.errCode := rfl
@[simp] theorem State.latchOperand_errPos (s : State) (b : Byte) : (s.latchOperand b).errPos = s.errPos := rfl
@[simp] theorem State.latchOperand_hidden (s : State) (b : Byte) :
    (s.latchOperand b).hidden =
      { s.hidden with lit := putByte s.hidden.lit s.hidden.cnt.toNat b, cnt := s.hidden.cnt + 1#4 } := rfl
@[simp] theorem State.latchOperand_stream (s : State) (b : Byte) : (s.latchOperand b).stream = s.stream := rfl
@[simp] theorem State.latchOperand_out (s : State) (b : Byte) : (s.latchOperand b).out = s.out := rfl
@[simp] theorem State.latchOperand_commands (s : State) (b : Byte) : (s.latchOperand b).commands = s.commands := rfl
@[simp] theorem State.latchOperand_trace (s : State) (b : Byte) : (s.latchOperand b).trace = s.trace := rfl
@[simp] theorem State.latchOperand_draws (s : State) (b : Byte) : (s.latchOperand b).draws = s.draws := rfl
@[simp] theorem State.latchOperand_npix (s : State) (b : Byte) : (s.latchOperand b).npix = s.npix := rfl
@[simp] theorem State.latchOperand_inside (s : State) (b : Byte) : (s.latchOperand b).inside = s.inside := rfl

/-! ### `latchHeaderByte` -/

@[simp] theorem State.latchHeaderByte_prev (s : State) (b : Byte) : (s.latchHeaderByte b).prev = s.prev := rfl
@[simp] theorem State.latchHeaderByte_cache (s : State) (b : Byte) : (s.latchHeaderByte b).cache = s.cache := rfl
@[simp] theorem State.latchHeaderByte_cursor (s : State) (b : Byte) : (s.latchHeaderByte b).cursor = s.cursor := rfl
@[simp] theorem State.latchHeaderByte_pos (s : State) (b : Byte) : (s.latchHeaderByte b).pos = s.pos := rfl
@[simp] theorem State.latchHeaderByte_hdr (s : State) (b : Byte) : (s.latchHeaderByte b).hdr = s.hdr := rfl
@[simp] theorem State.latchHeaderByte_hdrValid (s : State) (b : Byte) :
    (s.latchHeaderByte b).hdrValid = s.hdrValid := rfl
@[simp] theorem State.latchHeaderByte_sub (s : State) (b : Byte) : (s.latchHeaderByte b).sub = s.sub := rfl
@[simp] theorem State.latchHeaderByte_errCode (s : State) (b : Byte) :
    (s.latchHeaderByte b).errCode = s.errCode := rfl
@[simp] theorem State.latchHeaderByte_errPos (s : State) (b : Byte) : (s.latchHeaderByte b).errPos = s.errPos := rfl
@[simp] theorem State.latchHeaderByte_hidden (s : State) (b : Byte) :
    (s.latchHeaderByte b).hidden =
      { s.hidden with hbuf := putByte s.hidden.hbuf s.hidden.cnt.toNat b, cnt := s.hidden.cnt + 1#4 } := rfl
@[simp] theorem State.latchHeaderByte_stream (s : State) (b : Byte) : (s.latchHeaderByte b).stream = s.stream := rfl
@[simp] theorem State.latchHeaderByte_out (s : State) (b : Byte) : (s.latchHeaderByte b).out = s.out := rfl
@[simp] theorem State.latchHeaderByte_commands (s : State) (b : Byte) :
    (s.latchHeaderByte b).commands = s.commands := rfl
@[simp] theorem State.latchHeaderByte_trace (s : State) (b : Byte) : (s.latchHeaderByte b).trace = s.trace := rfl
@[simp] theorem State.latchHeaderByte_draws (s : State) (b : Byte) : (s.latchHeaderByte b).draws = s.draws := rfl
@[simp] theorem State.latchHeaderByte_npix (s : State) (b : Byte) : (s.latchHeaderByte b).npix = s.npix := rfl
@[simp] theorem State.latchHeaderByte_inside (s : State) (b : Byte) : (s.latchHeaderByte b).inside = s.inside := rfl

/-! ### `latchOperands` -/

@[simp] theorem State.latchOperands_prev (s : State) (bs : List Byte) : (s.latchOperands bs).prev = s.prev := rfl
@[simp] theorem State.latchOperands_cache (s : State) (bs : List Byte) : (s.latchOperands bs).cache = s.cache := rfl
@[simp] theorem State.latchOperands_cursor (s : State) (bs : List Byte) :
    (s.latchOperands bs).cursor = s.cursor := rfl
@[simp] theorem State.latchOperands_pos (s : State) (bs : List Byte) : (s.latchOperands bs).pos = s.pos := rfl
@[simp] theorem State.latchOperands_hdr (s : State) (bs : List Byte) : (s.latchOperands bs).hdr = s.hdr := rfl
@[simp] theorem State.latchOperands_hdrValid (s : State) (bs : List Byte) :
    (s.latchOperands bs).hdrValid = s.hdrValid := rfl
@[simp] theorem State.latchOperands_sub (s : State) (bs : List Byte) : (s.latchOperands bs).sub = s.sub := rfl
@[simp] theorem State.latchOperands_errCode (s : State) (bs : List Byte) :
    (s.latchOperands bs).errCode = s.errCode := rfl
@[simp] theorem State.latchOperands_errPos (s : State) (bs : List Byte) :
    (s.latchOperands bs).errPos = s.errPos := rfl
@[simp] theorem State.latchOperands_hidden (s : State) (bs : List Byte) :
    (s.latchOperands bs).hidden =
      { s.hidden with
        lit := putBytes s.hidden.lit s.hidden.cnt.toNat bs, cnt := s.hidden.cnt + BitVec.ofNat 4 bs.length } := rfl
@[simp] theorem State.latchOperands_stream (s : State) (bs : List Byte) :
    (s.latchOperands bs).stream = s.stream := rfl
@[simp] theorem State.latchOperands_out (s : State) (bs : List Byte) : (s.latchOperands bs).out = s.out := rfl
@[simp] theorem State.latchOperands_commands (s : State) (bs : List Byte) :
    (s.latchOperands bs).commands = s.commands := rfl
@[simp] theorem State.latchOperands_trace (s : State) (bs : List Byte) : (s.latchOperands bs).trace = s.trace := rfl
@[simp] theorem State.latchOperands_draws (s : State) (bs : List Byte) : (s.latchOperands bs).draws = s.draws := rfl
@[simp] theorem State.latchOperands_npix (s : State) (bs : List Byte) : (s.latchOperands bs).npix = s.npix := rfl
@[simp] theorem State.latchOperands_inside (s : State) (bs : List Byte) : (s.latchOperands bs).inside = s.inside := rfl

/-! ### `latchHeaderBytes` -/

@[simp] theorem State.latchHeaderBytes_prev (s : State) (bs : List Byte) :
    (s.latchHeaderBytes bs).prev = s.prev := rfl
@[simp] theorem State.latchHeaderBytes_cache (s : State) (bs : List Byte) :
    (s.latchHeaderBytes bs).cache = s.cache := rfl
@[simp] theorem State.latchHeaderBytes_cursor (s : State) (bs : List Byte) :
    (s.latchHeaderBytes bs).cursor = s.cursor := rfl
@[simp] theorem State.latchHeaderBytes_pos (s : State) (bs : List Byte) : (s.latchHeaderBytes bs).pos = s.pos := rfl
@[simp] theorem State.latchHeaderBytes_hdr (s : State) (bs : List Byte) : (s.latchHeaderBytes bs).hdr = s.hdr := rfl
@[simp] theorem State.latchHeaderBytes_hdrValid (s : State) (bs : List Byte) :
    (s.latchHeaderBytes bs).hdrValid = s.hdrValid := rfl
@[simp] theorem State.latchHeaderBytes_sub (s : State) (bs : List Byte) : (s.latchHeaderBytes bs).sub = s.sub := rfl
@[simp] theorem State.latchHeaderBytes_errCode (s : State) (bs : List Byte) :
    (s.latchHeaderBytes bs).errCode = s.errCode := rfl
@[simp] theorem State.latchHeaderBytes_errPos (s : State) (bs : List Byte) :
    (s.latchHeaderBytes bs).errPos = s.errPos := rfl
@[simp] theorem State.latchHeaderBytes_hidden (s : State) (bs : List Byte) :
    (s.latchHeaderBytes bs).hidden =
      { s.hidden with
        hbuf := putBytes s.hidden.hbuf s.hidden.cnt.toNat bs, cnt := s.hidden.cnt + BitVec.ofNat 4 bs.length } := rfl
@[simp] theorem State.latchHeaderBytes_stream (s : State) (bs : List Byte) :
    (s.latchHeaderBytes bs).stream = s.stream := rfl
@[simp] theorem State.latchHeaderBytes_out (s : State) (bs : List Byte) : (s.latchHeaderBytes bs).out = s.out := rfl
@[simp] theorem State.latchHeaderBytes_commands (s : State) (bs : List Byte) :
    (s.latchHeaderBytes bs).commands = s.commands := rfl
@[simp] theorem State.latchHeaderBytes_trace (s : State) (bs : List Byte) :
    (s.latchHeaderBytes bs).trace = s.trace := rfl
@[simp] theorem State.latchHeaderBytes_draws (s : State) (bs : List Byte) :
    (s.latchHeaderBytes bs).draws = s.draws := rfl
@[simp] theorem State.latchHeaderBytes_npix (s : State) (bs : List Byte) : (s.latchHeaderBytes bs).npix = s.npix := rfl
@[simp] theorem State.latchHeaderBytes_inside (s : State) (bs : List Byte) : (s.latchHeaderBytes bs).inside = s.inside := rfl

/-! ### `latchLastHeaderByte` -/

@[simp] theorem State.latchLastHeaderByte_prev (s : State) (b : Byte) : (s.latchLastHeaderByte b).prev = s.prev := rfl
@[simp] theorem State.latchLastHeaderByte_cache (s : State) (b : Byte) :
    (s.latchLastHeaderByte b).cache = s.cache := rfl
@[simp] theorem State.latchLastHeaderByte_cursor (s : State) (b : Byte) :
    (s.latchLastHeaderByte b).cursor = s.cursor := rfl
@[simp] theorem State.latchLastHeaderByte_pos (s : State) (b : Byte) : (s.latchLastHeaderByte b).pos = s.pos := rfl
@[simp] theorem State.latchLastHeaderByte_hdr (s : State) (b : Byte) : (s.latchLastHeaderByte b).hdr = s.hdr := rfl
@[simp] theorem State.latchLastHeaderByte_hdrValid (s : State) (b : Byte) :
    (s.latchLastHeaderByte b).hdrValid = s.hdrValid := rfl
@[simp] theorem State.latchLastHeaderByte_sub (s : State) (b : Byte) : (s.latchLastHeaderByte b).sub = s.sub := rfl
@[simp] theorem State.latchLastHeaderByte_errCode (s : State) (b : Byte) :
    (s.latchLastHeaderByte b).errCode = s.errCode := rfl
@[simp] theorem State.latchLastHeaderByte_errPos (s : State) (b : Byte) :
    (s.latchLastHeaderByte b).errPos = s.errPos := rfl
@[simp] theorem State.latchLastHeaderByte_hidden (s : State) (b : Byte) :
    (s.latchLastHeaderByte b).hidden = { s.hidden with hbuf := s.hidden.hbuf.set 13 b } := rfl
@[simp] theorem State.latchLastHeaderByte_stream (s : State) (b : Byte) :
    (s.latchLastHeaderByte b).stream = s.stream := rfl
@[simp] theorem State.latchLastHeaderByte_out (s : State) (b : Byte) : (s.latchLastHeaderByte b).out = s.out := rfl
@[simp] theorem State.latchLastHeaderByte_commands (s : State) (b : Byte) :
    (s.latchLastHeaderByte b).commands = s.commands := rfl
@[simp] theorem State.latchLastHeaderByte_trace (s : State) (b : Byte) :
    (s.latchLastHeaderByte b).trace = s.trace := rfl
@[simp] theorem State.latchLastHeaderByte_draws (s : State) (b : Byte) :
    (s.latchLastHeaderByte b).draws = s.draws := rfl
@[simp] theorem State.latchLastHeaderByte_npix (s : State) (b : Byte) : (s.latchLastHeaderByte b).npix = s.npix := rfl
@[simp] theorem State.latchLastHeaderByte_inside (s : State) (b : Byte) : (s.latchLastHeaderByte b).inside = s.inside := rfl

/-! ### `latchPend` -/

@[simp] theorem State.latchPend_prev (s : State) (p : Pixel) (n : BitVec 6) : (s.latchPend p n).prev = s.prev := rfl
@[simp] theorem State.latchPend_cache (s : State) (p : Pixel) (n : BitVec 6) :
    (s.latchPend p n).cache = s.cache := rfl
@[simp] theorem State.latchPend_cursor (s : State) (p : Pixel) (n : BitVec 6) :
    (s.latchPend p n).cursor = s.cursor := rfl
@[simp] theorem State.latchPend_pos (s : State) (p : Pixel) (n : BitVec 6) : (s.latchPend p n).pos = s.pos := rfl
@[simp] theorem State.latchPend_hdr (s : State) (p : Pixel) (n : BitVec 6) : (s.latchPend p n).hdr = s.hdr := rfl
@[simp] theorem State.latchPend_hdrValid (s : State) (p : Pixel) (n : BitVec 6) :
    (s.latchPend p n).hdrValid = s.hdrValid := rfl
@[simp] theorem State.latchPend_sub (s : State) (p : Pixel) (n : BitVec 6) : (s.latchPend p n).sub = s.sub := rfl
@[simp] theorem State.latchPend_errCode (s : State) (p : Pixel) (n : BitVec 6) :
    (s.latchPend p n).errCode = s.errCode := rfl
@[simp] theorem State.latchPend_errPos (s : State) (p : Pixel) (n : BitVec 6) :
    (s.latchPend p n).errPos = s.errPos := rfl
@[simp] theorem State.latchPend_hidden (s : State) (p : Pixel) (n : BitVec 6) :
    (s.latchPend p n).hidden = { s.hidden with pend := p, rem := n } := rfl
@[simp] theorem State.latchPend_stream (s : State) (p : Pixel) (n : BitVec 6) :
    (s.latchPend p n).stream = s.stream := rfl
@[simp] theorem State.latchPend_out (s : State) (p : Pixel) (n : BitVec 6) : (s.latchPend p n).out = s.out := rfl
@[simp] theorem State.latchPend_commands (s : State) (p : Pixel) (n : BitVec 6) :
    (s.latchPend p n).commands = s.commands := rfl
@[simp] theorem State.latchPend_trace (s : State) (p : Pixel) (n : BitVec 6) :
    (s.latchPend p n).trace = s.trace := rfl
@[simp] theorem State.latchPend_draws (s : State) (p : Pixel) (n : BitVec 6) :
    (s.latchPend p n).draws = s.draws := rfl
@[simp] theorem State.latchPend_npix (s : State) (p : Pixel) (n : BitVec 6) : (s.latchPend p n).npix = s.npix := rfl
@[simp] theorem State.latchPend_inside (s : State) (p : Pixel) (n : BitVec 6) : (s.latchPend p n).inside = s.inside := rfl

/-! ### `emit` -/

@[simp] theorem State.emit_prev (s : State) (p : Pixel) : (s.emit p).prev = p := rfl
@[simp] theorem State.emit_cache (s : State) (p : Pixel) : (s.emit p).cache = s.cache.set (slotHash p) p := rfl
@[simp] theorem State.emit_cursor (s : State) (p : Pixel) : (s.emit p).cursor = s.cursor + 1 := rfl
@[simp] theorem State.emit_pos (s : State) (p : Pixel) : (s.emit p).pos = s.pos := rfl
@[simp] theorem State.emit_hdr (s : State) (p : Pixel) : (s.emit p).hdr = s.hdr := rfl
@[simp] theorem State.emit_hdrValid (s : State) (p : Pixel) : (s.emit p).hdrValid = s.hdrValid := rfl
@[simp] theorem State.emit_sub (s : State) (p : Pixel) : (s.emit p).sub = s.sub := rfl
@[simp] theorem State.emit_errCode (s : State) (p : Pixel) : (s.emit p).errCode = s.errCode := rfl
@[simp] theorem State.emit_errPos (s : State) (p : Pixel) : (s.emit p).errPos = s.errPos := rfl
@[simp] theorem State.emit_hidden (s : State) (p : Pixel) : (s.emit p).hidden = s.hidden := rfl
@[simp] theorem State.emit_stream (s : State) (p : Pixel) : (s.emit p).stream = s.stream := rfl
@[simp] theorem State.emit_out (s : State) (p : Pixel) :
    (s.emit p).out = bif s.inside then s.out.writePixel s.cursor p else s.out := rfl
@[simp] theorem State.emit_commands (s : State) (p : Pixel) : (s.emit p).commands = s.commands := rfl
@[simp] theorem State.emit_trace (s : State) (p : Pixel) :
    (s.emit p).trace = ⟨s.cursor, p, s.inside⟩ :: s.trace := rfl
@[simp] theorem State.emit_draws (s : State) (p : Pixel) : (s.emit p).draws = s.draws := rfl
@[simp] theorem State.emit_npix (s : State) (p : Pixel) : (s.emit p).npix = s.npix := rfl

/-! ### `loadHeader` -/

@[simp] theorem State.loadHeader_prev (s : State) (h : Header) : (s.loadHeader h).prev = s.prev := rfl
@[simp] theorem State.loadHeader_cache (s : State) (h : Header) : (s.loadHeader h).cache = s.cache := rfl
@[simp] theorem State.loadHeader_cursor (s : State) (h : Header) : (s.loadHeader h).cursor = s.cursor := rfl
@[simp] theorem State.loadHeader_pos (s : State) (h : Header) : (s.loadHeader h).pos = s.pos := rfl
@[simp] theorem State.loadHeader_hdr (s : State) (h : Header) : (s.loadHeader h).hdr = h := rfl
@[simp] theorem State.loadHeader_hdrValid (s : State) (h : Header) : (s.loadHeader h).hdrValid = true := rfl
@[simp] theorem State.loadHeader_sub (s : State) (h : Header) : (s.loadHeader h).sub = .op := rfl
@[simp] theorem State.loadHeader_errCode (s : State) (h : Header) : (s.loadHeader h).errCode = s.errCode := rfl
@[simp] theorem State.loadHeader_errPos (s : State) (h : Header) : (s.loadHeader h).errPos = s.errPos := rfl
@[simp] theorem State.loadHeader_hidden (s : State) (h : Header) : (s.loadHeader h).hidden = s.hidden := rfl
@[simp] theorem State.loadHeader_stream (s : State) (h : Header) : (s.loadHeader h).stream = s.stream := rfl
@[simp] theorem State.loadHeader_out (s : State) (h : Header) : (s.loadHeader h).out = s.out := rfl
@[simp] theorem State.loadHeader_commands (s : State) (h : Header) : (s.loadHeader h).commands = s.commands := rfl
@[simp] theorem State.loadHeader_trace (s : State) (h : Header) : (s.loadHeader h).trace = s.trace := rfl
@[simp] theorem State.loadHeader_draws (s : State) (h : Header) : (s.loadHeader h).draws = s.draws := rfl

/-! ### `raise` -/

@[simp] theorem State.raise_prev (s : State) (e : ErrCode) (q : Nat) : (s.raise e q).prev = s.prev := rfl
@[simp] theorem State.raise_cache (s : State) (e : ErrCode) (q : Nat) : (s.raise e q).cache = s.cache := rfl
@[simp] theorem State.raise_cursor (s : State) (e : ErrCode) (q : Nat) : (s.raise e q).cursor = s.cursor := rfl
@[simp] theorem State.raise_pos (s : State) (e : ErrCode) (q : Nat) : (s.raise e q).pos = s.pos := rfl
@[simp] theorem State.raise_hdr (s : State) (e : ErrCode) (q : Nat) : (s.raise e q).hdr = s.hdr := rfl
@[simp] theorem State.raise_hdrValid (s : State) (e : ErrCode) (q : Nat) : (s.raise e q).hdrValid = s.hdrValid := rfl
@[simp] theorem State.raise_sub (s : State) (e : ErrCode) (q : Nat) : (s.raise e q).sub = .err := rfl
@[simp] theorem State.raise_errCode (s : State) (e : ErrCode) (q : Nat) : (s.raise e q).errCode = e := rfl
@[simp] theorem State.raise_errPos (s : State) (e : ErrCode) (q : Nat) : (s.raise e q).errPos = q := rfl
@[simp] theorem State.raise_hidden (s : State) (e : ErrCode) (q : Nat) : (s.raise e q).hidden = s.hidden := rfl
@[simp] theorem State.raise_stream (s : State) (e : ErrCode) (q : Nat) : (s.raise e q).stream = s.stream := rfl
@[simp] theorem State.raise_out (s : State) (e : ErrCode) (q : Nat) : (s.raise e q).out = s.out := rfl
@[simp] theorem State.raise_commands (s : State) (e : ErrCode) (q : Nat) : (s.raise e q).commands = s.commands := rfl
@[simp] theorem State.raise_trace (s : State) (e : ErrCode) (q : Nat) : (s.raise e q).trace = s.trace := rfl
@[simp] theorem State.raise_draws (s : State) (e : ErrCode) (q : Nat) : (s.raise e q).draws = s.draws := rfl
@[simp] theorem State.raise_npix (s : State) (e : ErrCode) (q : Nat) : (s.raise e q).npix = s.npix := rfl
@[simp] theorem State.raise_inside (s : State) (e : ErrCode) (q : Nat) : (s.raise e q).inside = s.inside := rfl

/-! ### `queue` -/

@[simp] theorem State.queue_prev (s : State) (q : List Command) : (s.queue q).prev = s.prev := rfl
@[simp] theorem State.queue_cache (s : State) (q : List Command) : (s.queue q).cache = s.cache := rfl
@[simp] theorem State.queue_cursor (s : State) (q : List Command) : (s.queue q).cursor = s.cursor := rfl
@[simp] theorem State.queue_pos (s : State) (q : List Command) : (s.queue q).pos = s.pos := rfl
@[simp] theorem State.queue_hdr (s : State) (q : List Command) : (s.queue q).hdr = s.hdr := rfl
@[simp] theorem State.queue_hdrValid (s : State) (q : List Command) : (s.queue q).hdrValid = s.hdrValid := rfl
@[simp] theorem State.queue_sub (s : State) (q : List Command) : (s.queue q).sub = s.sub := rfl
@[simp] theorem State.queue_errCode (s : State) (q : List Command) : (s.queue q).errCode = s.errCode := rfl
@[simp] theorem State.queue_errPos (s : State) (q : List Command) : (s.queue q).errPos = s.errPos := rfl
@[simp] theorem State.queue_hidden (s : State) (q : List Command) : (s.queue q).hidden = s.hidden := rfl
@[simp] theorem State.queue_stream (s : State) (q : List Command) : (s.queue q).stream = s.stream := rfl
@[simp] theorem State.queue_out (s : State) (q : List Command) : (s.queue q).out = s.out := rfl
@[simp] theorem State.queue_commands (s : State) (q : List Command) : (s.queue q).commands = q := rfl
@[simp] theorem State.queue_trace (s : State) (q : List Command) : (s.queue q).trace = s.trace := rfl
@[simp] theorem State.queue_draws (s : State) (q : List Command) : (s.queue q).draws = s.draws := rfl
@[simp] theorem State.queue_npix (s : State) (q : List Command) : (s.queue q).npix = s.npix := rfl
@[simp] theorem State.queue_inside (s : State) (q : List Command) : (s.queue q).inside = s.inside := rfl

/-! ### `present` -/

@[simp] theorem State.present_prev (s : State) (S : List Byte) : (s.present S).prev = s.prev := rfl
@[simp] theorem State.present_cache (s : State) (S : List Byte) : (s.present S).cache = s.cache := rfl
@[simp] theorem State.present_cursor (s : State) (S : List Byte) : (s.present S).cursor = s.cursor := rfl
@[simp] theorem State.present_pos (s : State) (S : List Byte) : (s.present S).pos = s.pos := rfl
@[simp] theorem State.present_hdr (s : State) (S : List Byte) : (s.present S).hdr = s.hdr := rfl
@[simp] theorem State.present_hdrValid (s : State) (S : List Byte) : (s.present S).hdrValid = s.hdrValid := rfl
@[simp] theorem State.present_sub (s : State) (S : List Byte) : (s.present S).sub = s.sub := rfl
@[simp] theorem State.present_errCode (s : State) (S : List Byte) : (s.present S).errCode = s.errCode := rfl
@[simp] theorem State.present_errPos (s : State) (S : List Byte) : (s.present S).errPos = s.errPos := rfl
@[simp] theorem State.present_hidden (s : State) (S : List Byte) : (s.present S).hidden = s.hidden := rfl
@[simp] theorem State.present_stream (s : State) (S : List Byte) : (s.present S).stream = S := rfl
@[simp] theorem State.present_out (s : State) (S : List Byte) : (s.present S).out = s.out := rfl
@[simp] theorem State.present_commands (s : State) (S : List Byte) : (s.present S).commands = s.commands := rfl
@[simp] theorem State.present_trace (s : State) (S : List Byte) : (s.present S).trace = s.trace := rfl
@[simp] theorem State.present_draws (s : State) (S : List Byte) : (s.present S).draws = s.draws := rfl
@[simp] theorem State.present_npix (s : State) (S : List Byte) : (s.present S).npix = s.npix := rfl
@[simp] theorem State.present_inside (s : State) (S : List Byte) : (s.present S).inside = s.inside := rfl

/-! ### `powerOnReset` -/

@[simp] theorem State.powerOnReset_cursor (s : State) : s.powerOnReset.cursor = 0 := rfl
@[simp] theorem State.powerOnReset_pos (s : State) : s.powerOnReset.pos = 0 := rfl
@[simp] theorem State.powerOnReset_hdrValid (s : State) : s.powerOnReset.hdrValid = false := rfl
@[simp] theorem State.powerOnReset_sub (s : State) : s.powerOnReset.sub = .idle := rfl
@[simp] theorem State.powerOnReset_errCode (s : State) : s.powerOnReset.errCode = .none := rfl
@[simp] theorem State.powerOnReset_stream (s : State) : s.powerOnReset.stream = s.stream := rfl
@[simp] theorem State.powerOnReset_out (s : State) : s.powerOnReset.out = s.out := rfl
@[simp] theorem State.powerOnReset_commands (s : State) : s.powerOnReset.commands = s.commands := rfl
@[simp] theorem State.powerOnReset_trace (s : State) : s.powerOnReset.trace = [] := rfl
@[simp] theorem State.powerOnReset_draws (s : State) : s.powerOnReset.draws = s.draws + 1 := rfl

/-! ### `perDecodeReset` -/

@[simp] theorem State.perDecodeReset_prev (s : State) : s.perDecodeReset.prev = Config.prevInit := rfl
@[simp] theorem State.perDecodeReset_cache (s : State) : s.perDecodeReset.cache = Vector.replicate 64 Config.cacheInit := rfl
@[simp] theorem State.perDecodeReset_cursor (s : State) : s.perDecodeReset.cursor = 0 := rfl
@[simp] theorem State.perDecodeReset_pos (s : State) : s.perDecodeReset.pos = 0 := rfl
@[simp] theorem State.perDecodeReset_hdrValid (s : State) : s.perDecodeReset.hdrValid = false := rfl
@[simp] theorem State.perDecodeReset_sub (s : State) : s.perDecodeReset.sub = .hdr := rfl
@[simp] theorem State.perDecodeReset_errCode (s : State) : s.perDecodeReset.errCode = .none := rfl
@[simp] theorem State.perDecodeReset_stream (s : State) : s.perDecodeReset.stream = s.stream := rfl
@[simp] theorem State.perDecodeReset_out (s : State) : s.perDecodeReset.out = s.out := rfl
@[simp] theorem State.perDecodeReset_commands (s : State) : s.perDecodeReset.commands = s.commands := rfl
@[simp] theorem State.perDecodeReset_trace (s : State) : s.perDecodeReset.trace = [] := rfl
@[simp] theorem State.perDecodeReset_draws (s : State) : s.perDecodeReset.draws = s.draws + 1 := rfl
@[simp] theorem State.perDecodeReset_cnt (s : State) : s.perDecodeReset.hidden.cnt = 0#4 := rfl

/-! ### A run of emissions touches the pixel state, OUT and the trace only -/

theorem State.emitTimes_succ (s : State) (p : Pixel) (n : Nat) :
    s.emitTimes p (n + 1) = (s.emit p).emitTimes p n := rfl

theorem State.emitTimes_frame (s : State) (p : Pixel) (n : Nat) :
    s.emitTimes p n = { s with
      prev := (s.emitTimes p n).prev, cache := (s.emitTimes p n).cache, cursor := (s.emitTimes p n).cursor
      out := (s.emitTimes p n).out, trace := (s.emitTimes p n).trace } := by
  induction n generalizing s with
  | zero => rfl
  | succ n ih => exact ih (s.emit p)

@[simp] theorem State.emitTimes_pos (s : State) (p : Pixel) (n : Nat) : (s.emitTimes p n).pos = s.pos := by
  rw [State.emitTimes_frame]
@[simp] theorem State.emitTimes_hdr (s : State) (p : Pixel) (n : Nat) : (s.emitTimes p n).hdr = s.hdr := by
  rw [State.emitTimes_frame]
@[simp] theorem State.emitTimes_hdrValid (s : State) (p : Pixel) (n : Nat) : (s.emitTimes p n).hdrValid = s.hdrValid := by
  rw [State.emitTimes_frame]
@[simp] theorem State.emitTimes_sub (s : State) (p : Pixel) (n : Nat) : (s.emitTimes p n).sub = s.sub := by
  rw [State.emitTimes_frame]
@[simp] theorem State.emitTimes_errCode (s : State) (p : Pixel) (n : Nat) : (s.emitTimes p n).errCode = s.errCode := by
  rw [State.emitTimes_frame]
@[simp] theorem State.emitTimes_errPos (s : State) (p : Pixel) (n : Nat) : (s.emitTimes p n).errPos = s.errPos := by
  rw [State.emitTimes_frame]
@[simp] theorem State.emitTimes_hidden (s : State) (p : Pixel) (n : Nat) : (s.emitTimes p n).hidden = s.hidden := by
  rw [State.emitTimes_frame]
@[simp] theorem State.emitTimes_stream (s : State) (p : Pixel) (n : Nat) : (s.emitTimes p n).stream = s.stream := by
  rw [State.emitTimes_frame]
@[simp] theorem State.emitTimes_commands (s : State) (p : Pixel) (n : Nat) : (s.emitTimes p n).commands = s.commands := by
  rw [State.emitTimes_frame]
@[simp] theorem State.emitTimes_draws (s : State) (p : Pixel) (n : Nat) : (s.emitTimes p n).draws = s.draws := by
  rw [State.emitTimes_frame]
@[simp] theorem State.emitTimes_npix (s : State) (p : Pixel) (n : Nat) : (s.emitTimes p n).npix = s.npix := by
  simp [State.npix]

@[simp] theorem State.emitTimes_cursor (s : State) (p : Pixel) (n : Nat) :
    (s.emitTimes p n).cursor = s.cursor + n := by
  induction n generalizing s with
  | zero => rfl
  | succ n ih => rw [State.emitTimes_succ, ih, State.emit_cursor]; omega

@[simp] theorem State.produce_cursor (s : State) (p : Pixel) (n : Nat) : (s.produce p n).cursor = s.cursor + n := by
  simp [State.produce]
@[simp] theorem State.produce_pos (s : State) (p : Pixel) (n : Nat) : (s.produce p n).pos = s.pos := by
  simp [State.produce]
@[simp] theorem State.produce_hdr (s : State) (p : Pixel) (n : Nat) : (s.produce p n).hdr = s.hdr := by
  simp [State.produce]
@[simp] theorem State.produce_hdrValid (s : State) (p : Pixel) (n : Nat) : (s.produce p n).hdrValid = s.hdrValid := by
  simp [State.produce]
@[simp] theorem State.produce_sub (s : State) (p : Pixel) (n : Nat) : (s.produce p n).sub = s.sub := by
  simp [State.produce]
@[simp] theorem State.produce_errCode (s : State) (p : Pixel) (n : Nat) : (s.produce p n).errCode = s.errCode := by
  simp [State.produce]
@[simp] theorem State.produce_errPos (s : State) (p : Pixel) (n : Nat) : (s.produce p n).errPos = s.errPos := by
  simp [State.produce]
@[simp] theorem State.produce_hidden (s : State) (p : Pixel) (n : Nat) : (s.produce p n).hidden = { s.hidden with pend := p, rem := 0#6 } := by
  simp [State.produce]
@[simp] theorem State.produce_stream (s : State) (p : Pixel) (n : Nat) : (s.produce p n).stream = s.stream := by
  simp [State.produce]
@[simp] theorem State.produce_commands (s : State) (p : Pixel) (n : Nat) : (s.produce p n).commands = s.commands := by
  simp [State.produce]
@[simp] theorem State.produce_draws (s : State) (p : Pixel) (n : Nat) : (s.produce p n).draws = s.draws := by
  simp [State.produce]

end Sys2Proof.Machine
end

