-- ==== Sys2Proof/Laws/Memory.lean ====
section
/-! SUPPORT. The laws of OUT: a read after a write, and the canonical form kept by every operation on it. -/

namespace Sys2Proof.Machine

@[simp] theorem Memory.readByte_writeByte_same (m : Memory) (a : Nat) (v : Byte) :
    (m.writeByte a v).readByte a = some v := by
  induction m with
  | nil => simp [Memory.writeByte, Memory.readByte]
  | cons x rest ih =>
    obtain ⟨b, w⟩ := x
    by_cases h₁ : a < b
    · simp [Memory.writeByte, Memory.readByte, h₁]
    · by_cases h₂ : a = b
      · simp [Memory.writeByte, Memory.readByte, h₂]
      · simp [Memory.writeByte, Memory.readByte, h₁, h₂, Ne.symm h₂, ih]

theorem Memory.readByte_writeByte_other (m : Memory) (a a' : Nat) (v : Byte) (h : a' ≠ a) :
    (m.writeByte a v).readByte a' = m.readByte a' := by
  induction m with
  | nil => simp [Memory.writeByte, Memory.readByte, Ne.symm h]
  | cons x rest ih =>
    obtain ⟨b, w⟩ := x
    by_cases h₁ : a < b
    · simp [Memory.writeByte, Memory.readByte, h₁, Ne.symm h]
    · by_cases h₂ : a = b
      · subst h₂
        simp [Memory.writeByte, Memory.readByte, Ne.symm h]
      · simp [Memory.writeByte, Memory.readByte, h₁, h₂, ih]

/-- The addresses after a write are those before it and the one written. -/
theorem Memory.mem_writeByte (m : Memory) (a : Nat) (v : Byte) (x : Host.Cell) (h : x ∈ m.writeByte a v) :
    x = (a, v) ∨ x ∈ m := by
  induction m with
  | nil => simpa [Memory.writeByte] using h
  | cons y rest ih =>
    obtain ⟨b, w⟩ := y
    simp only [Memory.writeByte] at h
    split at h
    · simpa using h
    · split at h
      · rcases List.mem_cons.1 h with h | h
        · exact .inl h
        · exact .inr (List.mem_cons_of_mem _ h)
      · rcases List.mem_cons.1 h with h | h
        · exact .inr (h ▸ List.mem_cons_self)
        · exact (ih h).imp id (List.mem_cons_of_mem _)

/-- A write keeps the canonical form. -/
theorem Memory.writeByte_wf (m : Memory) (a : Nat) (v : Byte) (h : m.wf) : (m.writeByte a v).wf := by
  induction m with
  | nil => simp [Memory.writeByte, Memory.wf]
  | cons y rest ih =>
    obtain ⟨b, w⟩ := y
    obtain ⟨hb, hr⟩ := List.pairwise_cons.1 h
    simp only [Memory.writeByte]
    split
    next h₁ =>
      refine List.pairwise_cons.2 ⟨fun x hx => ?_, h⟩
      rcases List.mem_cons.1 hx with rfl | hx
      · exact h₁
      · exact Nat.lt_trans h₁ (hb x hx)
    next h₁ =>
      split
      next h₂ => exact List.pairwise_cons.2 ⟨fun x hx => h₂ ▸ hb x hx, hr⟩
      next h₂ =>
        refine List.pairwise_cons.2 ⟨fun x hx => ?_, ih hr⟩
        rcases Memory.mem_writeByte rest a v x hx with rfl | hx
        · exact Nat.lt_of_le_of_ne (Nat.le_of_not_lt h₁) (Ne.symm h₂)
        · exact hb x hx

theorem Memory.writePixel_wf (m : Memory) (i : Nat) (p : Pixel) (h : m.wf) : (m.writePixel i p).wf :=
  Memory.writeByte_wf _ _ _ (Memory.writeByte_wf _ _ _ (Memory.writeByte_wf _ _ _ (Memory.writeByte_wf _ _ _ h)))

/-- A pixel written to OUT reads back. -/
@[simp] theorem Memory.readPixel_writePixel_same (m : Memory) (i : Nat) (p : Pixel) :
    (m.writePixel i p).readPixel i = some p := by
  have h (m : Memory) (c c' : Nat) (v : Byte) (hc : c ≠ c') :
      (m.writeByte (outAddress i c) v).readByte (outAddress i c') = m.readByte (outAddress i c') :=
    Memory.readByte_writeByte_other _ _ _ _ (by simp only [outAddress]; omega)
  simp [Memory.readPixel, Memory.writePixel, h]

/-- Every byte outside the pixel written reads as before. -/
theorem Memory.readByte_writePixel_other (m : Memory) (i a : Nat) (p : Pixel) (h : ∀ c < 4, a ≠ outAddress i c) :
    (m.writePixel i p).readByte a = m.readByte a := by
  simp only [Memory.writePixel]
  rw [Memory.readByte_writeByte_other _ _ _ _ (h 3 (by decide)), Memory.readByte_writeByte_other _ _ _ _ (h 2 (by decide)),
    Memory.readByte_writeByte_other _ _ _ _ (h 1 (by decide)), Memory.readByte_writeByte_other _ _ _ _ (h 0 (by decide))]

/-- Another pixel of OUT reads as before. -/
theorem Memory.readPixel_writePixel_other (m : Memory) (i j : Nat) (p : Pixel) (h : j ≠ i) :
    (m.writePixel i p).readPixel j = m.readPixel j := by
  have hb (c : Nat) (hc : c < 4) :
      (m.writePixel i p).readByte (outAddress j c) = m.readByte (outAddress j c) :=
    Memory.readByte_writePixel_other _ _ _ _ fun c' hc' => by simp only [outAddress]; omega
  simp [Memory.readPixel, hb]

/-- `Emit` keeps the canonical form of OUT. -/
theorem State.emit_out_wf (s : State) (p : Pixel) (h : s.out.wf) : (s.emit p).out.wf := by
  rw [State.emit_out]
  cases s.inside
  · exact h
  · exact Memory.writePixel_wf _ _ _ h

/-- So does a run of them. -/
theorem State.emitTimes_out_wf (s : State) (p : Pixel) (n : Nat) (h : s.out.wf) : (s.emitTimes p n).out.wf := by
  induction n generalizing s with
  | zero => exact h
  | succ n ih => exact ih _ (State.emit_out_wf s p h)

/-- The memory of the reset state has the canonical form. -/
theorem reset_out_wf : State.reset.out.wf := List.Pairwise.nil

end Sys2Proof.Machine
end

