-- ==== Sys2Proof/Laws/Ops.lean ====
section
/-! SUPPORT. What each shared operation can do, said once: the committed step, the latches, a run of emissions, the stream,
and the two places where the step decodes. -/

namespace Sys2Proof.Machine

/-! ### `commit` -/

/-- A committed state is the state itself, within both limits. -/
theorem State.commit_eq_next_iff (s t : State) :
    s.commit = .next t ↔ s = t ∧ s.pos < Config.counterLimit ∧ s.cursor < Config.counterLimit := by
  unfold State.commit
  split
  · simp; omega
  · split
    · simp; omega
    · simp; omega

theorem State.commit_of_lt (s : State) (hp : s.pos < Config.counterLimit) (hc : s.cursor < Config.counterLimit) :
    s.commit = .next s := (State.commit_eq_next_iff s s).2 ⟨rfl, hp, hc⟩

/-! ### Latches -/

/-- One byte of a byte register: the one put there, or the old one. -/
theorem getElem_putByte {n : Nat} (v : Vector Byte n) (i j : Nat) (b : Byte) (hj : j < n) :
    (putByte v i b)[j] = if i = j then b else v[j] := by
  unfold putByte
  split
  · rw [Vector.getElem_set]
  · split
    · omega
    · rfl

/-- Two bytes latched one after the other are latched in that order. -/
theorem State.latchOperands_cons (s : State) (b : Byte) (bs : List Byte) (h : s.hidden.cnt.toNat + 1 < 16) :
    s.latchOperands (b :: bs) = (s.latchOperand b).latchOperands bs := by
  have hc : (s.hidden.cnt + 1#4).toNat = s.hidden.cnt.toNat + 1 := by
    rw [BitVec.toNat_add]; exact Nat.mod_eq_of_lt h
  have hl : BitVec.ofNat 4 (bs.length + 1) = 1#4 + BitVec.ofNat 4 bs.length := by
    rw [Nat.add_comm, BitVec.ofNat_add]
  simp only [State.latchOperands, State.latchOperand, putBytes, List.length_cons, hc, hl, BitVec.add_assoc]

/-- So are header bytes. -/
theorem State.latchHeaderBytes_cons (s : State) (b : Byte) (bs : List Byte) (h : s.hidden.cnt.toNat + 1 < 16) :
    s.latchHeaderBytes (b :: bs) = (s.latchHeaderByte b).latchHeaderBytes bs := by
  have hc : (s.hidden.cnt + 1#4).toNat = s.hidden.cnt.toNat + 1 := by
    rw [BitVec.toNat_add]; exact Nat.mod_eq_of_lt h
  have hl : BitVec.ofNat 4 (bs.length + 1) = 1#4 + BitVec.ofNat 4 bs.length := by
    rw [Nat.add_comm, BitVec.ofNat_add]
  simp only [State.latchHeaderBytes, State.latchHeaderByte, putBytes, List.length_cons, hc, hl, BitVec.add_assoc]

theorem State.latchOperands_nil (s : State) : s.latchOperands [] = s := by
  simp [State.latchOperands, putBytes]

theorem State.latchHeaderBytes_nil (s : State) : s.latchHeaderBytes [] = s := by
  simp [State.latchHeaderBytes, putBytes]

/-! ### A run of emissions -/

theorem State.emitTimes_prev (s : State) (p : Pixel) (n : Nat) : (s.emitTimes p (n + 1)).prev = p := by
  induction n generalizing s with
  | zero => rfl
  | succ n ih => rw [State.emitTimes_succ]; exact ih (s.emit p)

/-- The cache after one or more emissions of a pixel is the cache after one (R77(b)). -/
theorem cache_set_set (c : Vector Pixel 64) (k : Fin 64) (p : Pixel) :
    (c.set k p).set k p = c.set k p := by
  simp

/-! ### The stream -/

theorem State.unread_eq_nil_iff (s : State) : s.unread = [] ↔ s.stream.length ≤ s.pos := by
  simp [State.unread]

theorem State.unread_length (s : State) : s.unread.length = s.stream.length - s.pos := by
  simp [State.unread]

theorem State.unread_consume (s : State) (n : Nat) : (s.consume n).unread = s.unread.drop n := by
  simp [State.unread, List.drop_drop]

end Sys2Proof.Machine
end

