-- ==== Sys2Proof/Laws/PerInstr.lean ====
section
/-! SUPPORT. Facts of every instruction as syntax, one lemma for each constructor. -/

namespace Sys2Proof.Laws.EncodeLength

/-- R47: an instruction's encoding has the instruction's length. -/
def Statement (i : Instr) : Prop := (encode i).length = i.length

theorem header (m w h : BitVec 32) (c cs : Byte) : Statement (.header m w h c cs) := rfl
theorem rgb (r g b : Byte) : Statement (.rgb r g b) := rfl
theorem rgba (r g b a : Byte) : Statement (.rgba r g b a) := rfl
theorem index (k : BitVec 6) : Statement (.index k) := rfl
theorem diff (fr fg fb : BitVec 2) : Statement (.diff fr fg fb) := rfl
theorem luma (fg : BitVec 6) (frg fbg : BitVec 4) : Statement (.luma fg frg fbg) := rfl
theorem run (n : BitVec 6) : Statement (.run n) := rfl

end Sys2Proof.Laws.EncodeLength
end

