-- ==== Sys2Proof/Tests/Slice0.lean ====
section
/-! SUPPORT. The author's own tests. Expected values come from spec/95_test_vectors.md, spec/30_encoding.md and the tables
of spec/, named at each test; the witnesses at the end meet the hypotheses of the statements. -/

namespace Sys2Proof.Tests

open Sys2Proof Sys2Proof.Machine

/-! ### Helpers -/

/-- Whether an outcome is a next state that passes a check. -/
def nextIs (o : Host.Outcome State Fault Refusal) (check : State → Bool) : Bool :=
  match o with
  | .next t => check t
  | .fault _ => false
  | .refused _ => false

/-- Whether an outcome is a refusal for a reason. -/
def refusedAs (o : Host.Outcome State Fault Refusal) (r : Refusal) : Bool :=
  match o with
  | .next _ => false
  | .fault _ => false
  | .refused q => decide (q = r)

/-- The HEADER record of a 3 x 2 image with 4 channels (program P2 of 95_test_vectors.md). -/
def header32 : List Byte :=
  [0x71#8, 0x6F#8, 0x69#8, 0x66#8, 0x00#8, 0x00#8, 0x00#8, 0x03#8, 0x00#8, 0x00#8, 0x00#8, 0x02#8, 0x04#8, 0x00#8]

/-- A decode that has just begun, with a stream. -/
def atHeader (S : List Byte) : State := { State.reset with sub := .hdr, stream := S }

/-- The state after `HDR(3,2,4,0)`, with the bytes that follow it. -/
def afterHeader32 (bytes : List Byte) : State :=
  { State.reset with
    sub := .op, pos := 14, stream := header32 ++ bytes, hdrValid := true
    hdr := ⟨0x716F6966#32, 3#32, 2#32, 4#8, 0#8⟩ }

/-- The same with another previous pixel. -/
def withPrev (p : Pixel) (bytes : List Byte) : State := { afterHeader32 bytes with prev := p }

/-- The state after `HDR(3,2,4,0)` and `RGB 200, 100, 50` (P2), with the bytes that follow. -/
def afterRgb (bytes : List Byte) : State :=
  { (afterHeader32 ([0xFE#8, 0xC8#8, 0x64#8, 0x32#8] ++ bytes)).emit ⟨200#8, 100#8, 50#8, 255#8⟩ with pos := 18 }

/-! ### Well-formedness: an ill-formed term for each check -/

theorem test_header_with_magic_is_wellFormed : (Instr.header 0x716F6966#32 1#32 1#32 4#8 0#8).wellFormed = true := by
  decide
theorem test_header_with_other_magic_is_refused : (Instr.header 0x514F4946#32 1#32 1#32 4#8 0#8).wellFormed = false := by
  decide
theorem test_run_61_is_wellFormed : (Instr.run 61#6).wellFormed = true := by decide
theorem test_run_62_is_refused : (Instr.run 62#6).wellFormed = false := by decide
theorem test_run_63_is_refused : (Instr.run 63#6).wellFormed = false := by decide

/-! ### Decoding: words written out from R46 to R52 -/

/-- R46: 95_test_vectors.md 2.1 row 3, the byte order. -/
theorem test_decode_header : decode .header
    [0b01110001#8, 0b01101111#8, 0b01101001#8, 0b01100110#8, 0x00#8, 0x00#8, 0x01#8, 0x02#8, 0x00#8, 0x03#8, 0x00#8,
      0x04#8, 0x03#8, 0x01#8, 0xFE#8] = .instr (.header 0x716F6966#32 258#32 196612#32 3#8 1#8) [0xFE#8] := by decide
/-- R51. -/
theorem test_decode_rgb : decode .operator [0b11111110#8, 0xC8#8, 0x64#8, 0x32#8, 0x72#8] =
    .instr (.rgb 200#8 100#8 50#8) [0x72#8] := by decide
/-- R52. -/
theorem test_decode_rgba : decode .operator [0b11111111#8, 0x09#8, 0x08#8, 0x07#8, 0x06#8] =
    .instr (.rgba 9#8 8#8 7#8 6#8) [] := by decide
/-- R48: `00kkkkkk`. -/
theorem test_decode_index : decode .operator [0b00110101#8] = .instr (.index 53#6) [] := by decide
/-- R49: `01rrggbb`; 2.6 row 4, `5B`: fields 1, 2, 3. -/
theorem test_decode_diff : decode .operator [0b01011011#8] = .instr (.diff 1#2 2#2 3#2) [] := by decide
/-- R50: `10gggggg` then `rrrrbbbb`; 2.7, `9E 79`: dg -2, drg -1, dbg +1. -/
theorem test_decode_luma : decode .operator [0b10011110#8, 0b01111001#8] = .instr (.luma 30#6 7#4 9#4) [] := by decide
/-- R48: `11nnnnnn`. -/
theorem test_decode_run : decode .operator [0b11000101#8] = .instr (.run 5#6) [] := by decide
/-- 2.2: the boundary bytes. -/
theorem test_classify_boundaries : [0x00#8, 0x3F#8, 0x40#8, 0x7F#8, 0x80#8, 0xBF#8, 0xC0#8, 0xFD#8, 0xFE#8, 0xFF#8].map
    classify = [some .index, some .index, some .diff, some .diff, some .luma, some .luma, some .run, some .run, some .rgb,
      some .rgba] := by decide
/-- R62, R63, R103: what is rejected, by name. -/
theorem test_decode_rejects :
    decode .header [0x61#8, 0x62#8, 0x63#8] = .rejected .headerEnd ∧
    decode .header [0x51#8, 0x4F#8, 0x49#8, 0x46#8] = .rejected .badMagic ∧
    decode .header [0x71#8, 0x6F#8, 0x69#8, 0x66#8] = .rejected .headerEnd ∧
    decode .operator [] = .rejected .exhausted ∧
    decode .operator [0x80#8] = .rejected (.operatorEnd 0x80#8) ∧
    decode .operator [0xFF#8, 1#8, 2#8, 3#8] = .rejected (.operatorEnd 0xFF#8) := by decide

/-! ### The table's words, and the state in which the next step runs one -/

theorem test_table_words :
    decodeTableWord 32 0x716F6966 = some (.header 0x716F6966#32 0#32 0#32 0#8 0#8) ∧
    decodeTableWord 112 0x716F6966 = some (.header 0x716F6966#32 0#32 0#32 0#8 0#8) ∧
    decodeTableWord 112 0x66696F71 = some (.header 0x716F6966#32 0#32 0#32 0#8 0#8) ∧
    decodeTableWord 8 0xFE = some (.rgb 0#8 0#8 0#8) ∧
    decodeTableWord 32 0x030201FE = some (.rgb 1#8 2#8 3#8) ∧
    decodeTableWord 8 0xFF = some (.rgba 0#8 0#8 0#8 0#8) ∧
    decodeTableWord 8 0x0C = some (.index 12#6) ∧
    decodeTableWord 8 0x79 = some (.diff 3#2 2#2 1#2) ∧
    decodeTableWord 8 0xA5 = some (.luma 37#6 0#4 0#4) ∧
    decodeTableWord 16 0x3CA5 = some (.luma 37#6 3#4 12#4) ∧
    decodeTableWord 8 0xC5 = some (.run 5#6) := by decide

theorem test_fetch_word_header : nextIs (step (State.reset.withFetchWord 32 0x716F6966)) fun t =>
    t.sub == .op && t.pos == 14 && t.hdrValid = true := by decide
theorem test_fetch_word_rgb : nextIs (step (State.reset.withFetchWord 8 0xFE)) fun t =>
    t.sub == .op && t.pos == 18 && t.cursor == 1 && t.prev == ⟨0#8, 0#8, 0#8, 255#8⟩ := by decide
theorem test_fetch_word_operators :
    [0xFF, 0x00, 0x40, 0x80, 0xC0].map (fun w => nextIs (step (State.reset.withFetchWord 8 w)) fun t =>
      t.sub == .op && t.cursor == 1) = [true, true, true, true, true] := by decide

/-! ### One step of each instruction -/

/-- 2.1 row 2: `5, 7, 3, 1`. -/
theorem test_step_header : nextIs (step (atHeader [0x71#8, 0x6F#8, 0x69#8, 0x66#8, 0#8, 0#8, 0#8, 5#8, 0#8, 0#8, 0#8, 7#8,
    3#8, 1#8])) fun t => t.hdr == ⟨0x716F6966#32, 5#32, 7#32, 3#8, 1#8⟩ && t.npix == 35 && t.pos == 14 && t.short &&
      t.hdrValid := by decide
/-- P6: a bad magic. -/
theorem test_step_bad_magic : nextIs (step (atHeader [0x71#8, 0x6F#8, 0x69#8, 0x67#8, 0#8, 0#8])) fun t =>
    t.sub == .err && t.errCode == .formatError && t.errPos == 0 && t.pos == 4 && !t.hdrValid := by decide
/-- 2.3 row 1. -/
theorem test_step_rgb : nextIs (step (afterHeader32 [0xFE#8, 0xC8#8, 0x64#8, 0x32#8])) fun t =>
    t.prev == ⟨200#8, 100#8, 50#8, 255#8⟩ && t.cache.get 31 == ⟨200#8, 100#8, 50#8, 255#8⟩ && t.pos == 18 &&
      t.out.readPixel 0 == some ⟨200#8, 100#8, 50#8, 255#8⟩ := by decide
/-- 2.3 row 3: alpha is inherited. -/
theorem test_step_rgb_alpha : nextIs (step (withPrev ⟨9#8, 9#8, 9#8, 77#8⟩ [0xFE#8, 0x0A#8, 0x14#8, 0x1E#8])) fun t =>
    t.prev == ⟨10#8, 20#8, 30#8, 77#8⟩ && t.cache.get 35 == ⟨10#8, 20#8, 30#8, 77#8⟩ := by decide
/-- 2.4 row 1; D31: the consumer's bytes. -/
theorem test_step_rgba : nextIs (step (afterHeader32 [0xFF#8, 0x0A#8, 0x14#8, 0x1E#8, 0x28#8])) fun t =>
    t.cache.get 12 == ⟨10#8, 20#8, 30#8, 40#8⟩ && t.pos == 19 && t.out == [(0, 10#8), (1, 20#8), (2, 30#8), (3, 40#8)] := by
  decide
/-- 2.10: one operand byte missing. -/
theorem test_step_rgba_cut_short : nextIs (step (afterHeader32 [0xFF#8, 1#8, 2#8, 3#8])) fun t =>
    t.errCode == .unexpectedEndOfStream && t.errPos == 14 && t.pos == 18 && t.cursor == 0 &&
      t.prev == ⟨0#8, 0#8, 0#8, 255#8⟩ := by decide
/-- P2, the last operator: a hit. -/
theorem test_step_index_hit : nextIs (step (afterRgb [0x1F#8])) fun t =>
    t.prev == ⟨200#8, 100#8, 50#8, 255#8⟩ && t.cursor == 2 && t.out.readPixel 1 == some ⟨200#8, 100#8, 50#8, 255#8⟩ := by
  decide
/-- 2.5 row 1: a miss. -/
theorem test_step_index_miss : nextIs (step (afterHeader32 [0x35#8])) fun t =>
    t.prev == ⟨0#8, 0#8, 0#8, 0#8⟩ && t.cache.get 53 == ⟨0#8, 0#8, 0#8, 0#8⟩ && t.errCode == .none := by decide
/-- 2.6 rows 1 and 4. -/
theorem test_step_diff : nextIs (step (withPrev ⟨100#8, 100#8, 100#8, 255#8⟩ [0x79#8])) fun t =>
    t.prev == ⟨101#8, 100#8, 99#8, 255#8⟩ && t.cache.get 13 == ⟨101#8, 100#8, 99#8, 255#8⟩ := by decide
theorem test_step_diff_wraps : nextIs (step (withPrev ⟨0#8, 255#8, 1#8, 0#8⟩ [0x5B#8])) fun t =>
    t.prev == ⟨255#8, 255#8, 2#8, 0#8⟩ && t.cache.get 6 == ⟨255#8, 255#8, 2#8, 0#8⟩ := by decide
/-- 2.7 rows 8 and 9. -/
theorem test_step_luma_wraps : nextIs (step (withPrev ⟨5#8, 40#8, 5#8, 255#8⟩ [0x80#8, 0xF0#8])) fun t =>
    t.prev == ⟨236#8, 8#8, 221#8, 255#8⟩ && t.cache.get 44 == ⟨236#8, 8#8, 221#8, 255#8⟩ && t.pos == 16 := by decide
theorem test_step_luma : nextIs (step (withPrev ⟨200#8, 100#8, 50#8, 0#8⟩ [0x9E#8, 0x79#8])) fun t =>
    t.prev == ⟨197#8, 98#8, 49#8, 0#8⟩ && t.cache.get 16 == ⟨197#8, 98#8, 49#8, 0#8⟩ := by decide
/-- S5 on an image of 3 x 2. -/
theorem test_step_run : nextIs (step (afterHeader32 [0xC5#8])) fun t =>
    t.cursor == 6 && t.pos == 15 && !t.short && t.cache.get 53 == ⟨0#8, 0#8, 0#8, 255#8⟩ &&
      t.out.readPixel 5 == some ⟨0#8, 0#8, 0#8, 255#8⟩ := by decide
/-- 2.8 row 6 (P3): copies beyond the image are decoded and dropped. -/
theorem test_step_run_beyond_image : nextIs (step { afterRgb [0xC4#8] with cursor := 4 }) fun t =>
    t.cursor == 9 && (t.out.readPixel 5).isSome && (t.out.readPixel 6).isNone := by decide

/-! ### The rest of the machine -/

/-- S4, 90_conflicts.md C1: both readings of the LUMA example. -/
theorem test_luma_example :
    lumaPixel Config.prevInit 0#6 15#4 15#4 = ⟨231#8, 224#8, 231#8, 255#8⟩ ∧
    lumaPixel Config.prevInit 0#6 7#4 7#4 = ⟨223#8, 224#8, 223#8, 255#8⟩ := by decide
/-- 2.9: hashes. -/
theorem test_hash : [(⟨0#8, 0#8, 0#8, 255#8⟩ : Pixel), ⟨255#8, 255#8, 255#8, 255#8⟩, ⟨1#8, 0#8, 0#8, 0#8⟩, ⟨0#8, 1#8, 0#8, 0#8⟩,
    ⟨0#8, 0#8, 1#8, 0#8⟩, ⟨0#8, 0#8, 0#8, 1#8⟩, ⟨1#8, 2#8, 3#8, 4#8⟩, ⟨255#8, 0#8, 0#8, 255#8⟩].map (fun p => (slotHash p).val)
    = [53, 38, 3, 5, 7, 11, 14, 50] := by decide
/-- R17, R18, R92: the codes. -/
theorem test_codes :
    [EngineState.idle, .header, .awaitOpcode, .done, .error].map EngineState.code = [0#3, 1#3, 2#3, 3#3, 4#3] ∧
    [ErrCode.none, .formatError, .decodeError, .unexpectedEndOfStream].map ErrCode.code = [0#2, 1#2, 2#2, 3#2] := by decide
/-- R7: the packed pixel. -/
theorem test_pack : pack ⟨0x11#8, 0x22#8, 0x33#8, 0x44#8⟩ = 0x11223344#32 ∧
    unpack 0x11223344#32 = ⟨0x11#8, 0x22#8, 0x33#8, 0x44#8⟩ := by decide
/-- 2.10: a header alone is DONE and short. -/
theorem test_step_end : nextIs (step (afterHeader32 [])) fun t => t.done && t.short && t.pos == 14 && t.errCode == .none := by
  decide
/-- 2.10: one LUMA byte. -/
theorem test_step_luma_cut_short : nextIs (step (afterHeader32 [0x80#8])) fun t =>
    t.error && t.errPos == 14 && t.pos == 15 && t.cursor == 0 := by decide
/-- P4, cycles 15 and 16: the RUN tag byte, then the first copy. -/
theorem test_clock_run :
    ((afterHeader32 [0xC1#8]).drive.sub = .emit ∧ (afterHeader32 [0xC1#8]).drive.hidden.rem = 1#6) ∧
    ((afterHeader32 [0xC1#8]).driveFor 2).hidden.rem = 0#6 ∧ ((afterHeader32 [0xC1#8]).driveFor 2).cursor = 1 ∧
    ((afterHeader32 [0xC1#8]).driveFor 3).sub = .op := by decide
/-- R59: P2's lines of assembly and P7's. -/
theorem test_assemble :
    assemble (.diff 1 (-2) 0) = some [0x72#8] ∧ assemble (.luma 10 (-3) 5) = some [0xAA#8, 0x5D#8] ∧
    assemble (.run 2) = some [0xC1#8] ∧ assemble (.index 31) = some [0x1F#8] ∧ assemble (.run 63) = none ∧
    assemble (.lumaAbs 10 7 15) = some [0xAA#8, 0x5D#8] ∧ assemble (.badMagic 0x71 0x6F 0x69 0x66) = none ∧
    assemble .endMarker = some [0#8, 0#8, 0#8, 0#8, 0#8, 0#8, 0#8, 1#8] := by decide

/-! ### Witnesses: states and operands that meet the hypotheses of each statement, clause by clause -/

/-- An outcome that passes a check is a next state. -/
theorem next_of_nextIs {o : Host.Outcome State Fault Refusal} {check : State → Bool} (h : nextIs o check = true) :
    ∃ t, o = .next t ∧ check t = true := by
  cases o with
  | next t => exact ⟨t, rfl, h⟩
  | fault r => exact absurd h (by simp [nextIs])
  | refused r => exact absurd h (by simp [nextIs])

/-- DecodeInvertsEncode: both checks at their boundary. -/
theorem witness_DecodeInvertsEncode :
    (Instr.header Config.magic 0#32 0xFFFFFFFF#32 0#8 255#8).wellFormed = true ∧ (Instr.run 61#6).wellFormed = true ∧
    (Instr.rgba 255#8 0#8 1#8 2#8).wellFormed = true := by decide
/-- DecodedBytesAreTheEncoding: the longest run, bytes after it. -/
theorem witness_DecodedBytesAreTheEncoding : decode .operator [0xFD#8, 0xFE#8] = .instr (.run 61#6) [0xFE#8] ∧
    decode .header header32 = .instr (.header 0x716F6966#32 3#32 2#32 4#8 0#8) [] := by decide
/-- OperatorsAreRejectedOnlyWhenCutShort: each side. -/
theorem witness_OperatorsAreRejectedOnlyWhenCutShort : decode .operator [] = .rejected .exhausted ∧
    decode .operator [0xFE#8, 1#8, 2#8] = .rejected (.operatorEnd 0xFE#8) ∧
    classify 0xFE#8 = some .rgb ∧ [1#8, 2#8].length < Tag.rgb.operandBytes := by decide
/-- AssemblyMeansItsOperands: both ends of each range. -/
theorem witness_AssemblyMeansItsOperands :
    assemble (.diff (-2) 1 0) = some [0x4E#8] ∧ assemble (.luma (-32) 7 (-8)) = some [0x80#8, 0xF0#8] ∧
    assemble (.luma 31 (-8) 7) = some [0xBF#8, 0x0F#8] ∧ assemble (.run 1) = some [0xC0#8] ∧
    assemble (.run 62) = some [0xFD#8] := by decide
/-- HeaderLoadsOrFails: 14 bytes exactly; 4 bytes exactly and a bad magic; 13 bytes; no byte. -/
theorem witness_HeaderLoadsOrFails :
    ((atHeader header32).pos = 0 ∧ (atHeader header32).Room (atHeader header32).stream.length 0 ∧
      14 ≤ (atHeader header32).stream.length) ∧
    ((atHeader [1#8, 2#8, 3#8, 4#8]).pos = 0 ∧ (atHeader [1#8, 2#8, 3#8, 4#8]).Room 4 0 ∧
      4 ≤ (atHeader [1#8, 2#8, 3#8, 4#8]).stream.length ∧ 0x01020304#32 ≠ Config.magic) ∧
    ((atHeader (header32.take 13)).Room 13 0 ∧ (atHeader (header32.take 13)).stream.length < 14) ∧
    ((atHeader []).Room 0 0 ∧ (atHeader []).stream.length < 4) :=
  ⟨⟨by decide, ⟨by decide, by decide⟩, by decide⟩, ⟨by decide, ⟨by decide, by decide⟩, by decide, by decide⟩,
    ⟨⟨by decide, by decide⟩, by decide⟩, ⟨by decide, by decide⟩, by decide⟩
/-- RgbEmitsLiteralsKeepingAlpha: three operand bytes exactly; two; none. -/
theorem witness_RgbEmitsLiteralsKeepingAlpha :
    (∃ s : State, s.pos + 4 ≤ s.stream.length ∧ s.Room 4 1) ∧
    (∃ s : State, s.pos < s.stream.length ∧ s.stream.length < s.pos + 4 ∧ s.Room 4 0) ∧
    (∃ s : State, s.pos + 1 = s.stream.length ∧ s.pos < s.stream.length ∧ s.stream.length < s.pos + 4 ∧ s.Room 4 0) :=
  ⟨⟨afterHeader32 [0xFE#8, 1#8, 2#8, 3#8], by decide, by decide, by decide⟩,
    ⟨afterHeader32 [0xFE#8, 1#8, 2#8], by decide, by decide, by decide, by decide⟩,
    ⟨afterHeader32 [0xFE#8], by decide, by decide, by decide, by decide, by decide⟩⟩
/-- RgbaEmitsFourLiterals: four operand bytes exactly; three. -/
theorem witness_RgbaEmitsFourLiterals :
    (∃ s : State, s.pos + 5 ≤ s.stream.length ∧ s.Room 5 1) ∧
    (∃ s : State, s.pos < s.stream.length ∧ s.stream.length < s.pos + 5 ∧ s.Room 5 0) :=
  ⟨⟨afterHeader32 [0xFF#8, 1#8, 2#8, 3#8, 4#8], by decide, by decide, by decide⟩,
    ⟨afterHeader32 [0xFF#8, 1#8, 2#8, 3#8], by decide, by decide, by decide, by decide⟩⟩
/-- IndexEmitsTheCachedPixel: room; a slot that holds a pixel of its own hash; a slot never written. -/
theorem witness_IndexEmitsTheCachedPixel :
    ∃ s : State, s.Room 1 1 ∧ slotHash (s.cache.get (slotOf 31#6)) = slotOf 31#6 ∧
      s.cache.get (slotOf 63#6) = ⟨0#8, 0#8, 0#8, 0#8⟩ :=
  ⟨afterRgb [0x1F#8], ⟨by decide, by decide⟩, by decide, by decide⟩
/-- DiffAddsBiasedDeltas: 2.6 row 2, which wraps. -/
theorem witness_DiffAddsBiasedDeltas : ∃ s : State, s.Room 1 1 ∧
    (⟨254#8, 254#8, 254#8, 255#8⟩ : Pixel) =
      ⟨BitVec.ofInt 8 ((s.prev.r.toNat : Int) + (((0#2).toNat : Int) - 2)),
       BitVec.ofInt 8 ((s.prev.g.toNat : Int) + (((0#2).toNat : Int) - 2)),
       BitVec.ofInt 8 ((s.prev.b.toNat : Int) + (((0#2).toNat : Int) - 2)), s.prev.a⟩ :=
  ⟨afterHeader32 [0x40#8], ⟨by decide, by decide⟩, by decide⟩
/-- LumaAddsBiasedDeltas: 2.7 row 1, two bytes; and its tag byte alone. -/
theorem witness_LumaAddsBiasedDeltas :
    (∃ s : State, s.pos + 2 ≤ s.stream.length ∧ s.Room 2 1 ∧
      (⟨231#8, 224#8, 231#8, 255#8⟩ : Pixel) =
        ⟨BitVec.ofInt 8 ((s.prev.r.toNat : Int) + ((((15#4).toNat : Int) - 8) + (((0#6).toNat : Int) - 32))),
         BitVec.ofInt 8 ((s.prev.g.toNat : Int) + (((0#6).toNat : Int) - 32)),
         BitVec.ofInt 8 ((s.prev.b.toNat : Int) + ((((15#4).toNat : Int) - 8) + (((0#6).toNat : Int) - 32))), s.prev.a⟩) ∧
    (∃ s : State, s.pos + 1 = s.stream.length ∧ s.Room 1 0) :=
  ⟨⟨afterHeader32 [0x80#8, 0xFF#8], by decide, ⟨by decide, by decide⟩, by decide⟩,
    ⟨afterHeader32 [0x80#8], by decide, by decide, by decide⟩⟩
/-- RunRepeatsThePreviousPixel: the shortest and the longest run. -/
theorem witness_RunRepeatsThePreviousPixel :
    ∃ s : State, s.Room 1 ((0#6).toNat + 1) ∧ s.Room 1 ((61#6).toNat + 1) :=
  ⟨afterHeader32 [0xFD#8], ⟨by decide, by decide⟩, by decide, by decide⟩
/-- OperatorsEmitTheirPixelsInOrder, ChannelsAndColorspaceSteerNothing. -/
theorem witness_operator_completes : ∃ (i : Instr) (s t : State), i.position = .operator ∧
    s.pos + i.length ≤ s.stream.length ∧ exec i s = .next t ∧ i.wellFormed = true := by
  obtain ⟨t, h, -⟩ := next_of_nextIs (o := exec (.luma 0#6 15#4 15#4) (afterHeader32 [0x80#8, 0xFF#8]))
    (check := fun _ => true) (by decide)
  exact ⟨_, _, t, by decide, by decide, h, by decide⟩
/-- EveryInstructionAnswersAState. -/
theorem witness_EveryInstructionAnswersAState : ∃ s : State, s.Room 14 64 ∧ s.stream.length < Config.counterLimit :=
  ⟨afterHeader32 [0xC0#8], ⟨by decide, by decide⟩, by decide⟩
/-- CountersAreRefusedAtTheirLimit, one-byte operators: the last position; the last cursor. -/
theorem witness_CountersAreRefusedAtTheirLimit :
    (∃ s : State, (Instr.index 0#6).length = 1 ∧ Config.counterLimit ≤ s.pos + (Instr.index 0#6).length) ∧
    (∃ s : State, s.pos + (Instr.run 0#6).length < Config.counterLimit ∧
      Config.counterLimit ≤ s.cursor + (pixelsOf s.prev s.cache (.run 0#6)).length) :=
  ⟨⟨{ State.reset with pos := 18446744073709551615 }, by decide⟩,
    ⟨{ State.reset with cursor := 18446744073709551615 }, by decide, by decide⟩⟩
/-- A machine near the end of a stream that is as long as the limit of the counters. -/
theorem nearTheLimit (p : Nat) : ∃ s : State, s.pos = p ∧ s.stream.length = Config.counterLimit :=
  ⟨{ State.reset with pos := p, stream := List.replicate Config.counterLimit 0#8 }, rfl, List.length_replicate⟩
/-- CountersAreRefusedAtTheirLimit, RGBA: its last byte at the limit; cut short there. -/
theorem witness_rgba_at_the_limit :
    (∃ s : State, s.pos + (Instr.rgba 0#8 0#8 0#8 0#8).length ≤ s.stream.length ∧
      Config.counterLimit ≤ s.pos + (Instr.rgba 0#8 0#8 0#8 0#8).length) ∧
    (∃ s : State, 1 < (Instr.rgba 0#8 0#8 0#8 0#8).length ∧
      s.stream.length < s.pos + (Instr.rgba 0#8 0#8 0#8 0#8).length ∧ Config.counterLimit ≤ s.stream.length) := by
  obtain ⟨s, hp, hl⟩ := nearTheLimit 18446744073709551611
  obtain ⟨t, ht, hm⟩ := nearTheLimit 18446744073709551612
  simp only [Config.counterLimit] at hl hm ⊢
  exact ⟨⟨s, by simp only [Instr.length]; omega⟩, ⟨t, by simp only [Instr.length]; omega⟩⟩
/-- CountersAreRefusedAtTheirLimit, HEADER: 14 bytes to the limit, 4 bytes to the limit, the end of the stream at it. -/
theorem witness_header_at_the_limit :
    (∃ s : State, s.pos + 14 ≤ s.stream.length ∧ Config.counterLimit ≤ s.pos + 14) ∧
    (0x01020304#32 ≠ Config.magic ∧ ∃ s : State, s.pos + 4 ≤ s.stream.length ∧ Config.counterLimit ≤ s.pos + 4) ∧
    (∃ s : State, s.stream.length < s.pos + 14 ∧ Config.counterLimit ≤ s.stream.length) := by
  obtain ⟨s, hs, hl⟩ := nearTheLimit 18446744073709551602
  obtain ⟨t, ht, hm⟩ := nearTheLimit 18446744073709551612
  simp only [Config.counterLimit] at hl hm ⊢
  exact ⟨⟨s, by omega⟩, ⟨by decide, t, by omega⟩, ⟨t, by omega⟩⟩
/-- D12, V7: the refusal itself. -/
theorem test_limit_refused :
    refusedAs (exec (.index 0#6) { State.reset with pos := 18446744073709551615 }) .positionLimit = true ∧
    refusedAs (exec (.run 0#6) { State.reset with cursor := 18446744073709551615 }) .cursorLimit = true := by decide
/-- EmitHasFourEffects: OUT in its canonical form, with bytes in it. -/
theorem witness_EmitHasFourEffects : ∃ s : State, s.out.wf ∧ s.out.length = 4 := ⟨afterRgb [], by decide, by decide⟩
/-- RunLeavesTheCacheOfOneEmit. -/
theorem witness_RunLeavesTheCacheOfOneEmit : ∃ t, exec (.run 5#6) (afterHeader32 [0xC5#8]) = .next t := by
  obtain ⟨t, h, -⟩ := next_of_nextIs (o := exec (.run 5#6) (afterHeader32 [0xC5#8])) (check := fun _ => true) (by decide)
  exact ⟨t, h⟩
/-- IndexSeesThePixelJustEmitted: the highest slot (2.9: (21,0,0,0) has slot 63). -/
theorem witness_IndexSeesThePixelJustEmitted : ∃ s : State, slotOf 63#6 = slotHash ⟨21#8, 0#8, 0#8, 0#8⟩ ∧
    (s.emit ⟨21#8, 0#8, 0#8, 0#8⟩).Room 1 1 := ⟨afterHeader32 [0x3F#8], by decide, by decide, by decide⟩
/-- StepRunsTheDecodedInstruction: each place, each queue. -/
theorem witness_StepRunsTheDecodedInstruction :
    ((afterRgb [0x1F#8]).sub = .op ∧ decode .operator (afterRgb [0x1F#8]).unread = .instr (.index 31#6) [] ∧
      (afterRgb [0x1F#8]).commands = []) ∧
    ((atHeader header32).sub = .hdr ∧ (atHeader header32).hidden.cnt = 0#4 ∧
      decode .header (atHeader header32).unread = .instr (.header 0x716F6966#32 3#32 2#32 4#8 0#8) []) ∧
    ((afterRgb [0x1F#8]).queue [.quiet]).commands = .quiet :: [] ∧
    ((afterRgb [0x1F#8]).queue [.start []]).commands = .start [] :: [] := by decide
/-- ExhaustionAtABoundaryIsDone, its first half. -/
theorem witness_ExhaustionAtABoundaryIsDone : ∃ s : State, s.sub = .op ∧ s.commands = [] ∧ s.Room 0 0 ∧
    s.pos = s.stream.length := ⟨afterRgb [], by decide, by decide, ⟨by decide, by decide⟩, by decide⟩
/-- CutShortOperatorsTakeUnexpectedEnd: RGB with two operand bytes, RGBA with three, LUMA with none. -/
theorem witness_CutShortOperatorsTakeUnexpectedEnd :
    [(0xFE#8, [1#8, 2#8]), (0xFF#8, [1#8, 2#8, 3#8]), (0xBF#8, [])].all (fun x =>
      let s := afterRgb (x.1 :: x.2)
      decide (s.sub = .op ∧ s.commands = [] ∧ s.unread = x.1 :: x.2 ∧ s.stream.length < Config.counterLimit ∧
        s.cursor < Config.counterLimit) &&
      ((classify x.1).map fun tag => decide (x.2.length < tag.operandBytes)) == some true) = true := by decide
/-- CutShortOperatorsTakeUnexpectedEnd, the other half: exactly as many bytes as the operator needs. -/
theorem witness_operand_bytes_there :
    [(0xFE#8, [1#8, 2#8, 3#8]), (0xBF#8, [0#8]), (0xFD#8, [])].all (fun x =>
      let s := afterRgb (x.1 :: x.2)
      decide (s.unread = x.1 :: x.2) &&
      ((classify x.1).map fun tag => decide (tag.operandBytes ≤ x.2.length)) == some true &&
      nextIs (step s) fun t => t.sub == .op) = true := by decide
/-- HeaderStepFollowsTheTable: each row at a boundary: 3 bytes; 4 bytes and a bad magic; 4 and 13 bytes; 14 bytes. -/
theorem witness_HeaderStepFollowsTheTable :
    [[0x61#8, 0x62#8, 0x63#8], [0x51#8, 0x4F#8, 0x49#8, 0x46#8], header32.take 4, header32.take 13, header32].all (fun S =>
      let s := atHeader S
      decide (s.sub = .hdr ∧ s.hidden.cnt = 0#4 ∧ s.pos = 0 ∧ s.commands = [] ∧
        s.pos + s.stream.length < Config.counterLimit ∧ s.cursor + 0 < Config.counterLimit)) = true ∧
    (atHeader [0x51#8, 0x4F#8, 0x49#8, 0x46#8]).stream.take 4 ≠ [0x71#8, 0x6F#8, 0x69#8, 0x66#8] ∧
    (atHeader (header32.take 4)).stream.take 4 = [0x71#8, 0x6F#8, 0x69#8, 0x66#8] ∧
    (atHeader (header32.take 4)).stream.length = 4 ∧ (atHeader (header32.take 13)).stream.length = 13 ∧
    header32 = [0x71#8, 0x6F#8, 0x69#8, 0x66#8, 0#8, 0#8, 0#8, 3#8, 0#8, 0#8, 0#8, 2#8, 4#8, 0#8] ++ [] := by decide
/-- ErrorsArePrecise: P5's step into ERROR. -/
theorem witness_ErrorsArePrecise : ∃ s t : State, step s = .next t ∧ t.sub = .err ∧ s.sub ≠ .err := by
  obtain ⟨t, h, ht⟩ := next_of_nextIs (o := step (afterRgb [0xFE#8, 1#8, 2#8])) (check := fun t => t.sub == .err) (by decide)
  exact ⟨_, t, h, by simpa using ht, by decide⟩
/-- NoStepRaisesDecodeError, HeaderRegistersAreWrittenOnce, OutIsTouchedOnlyInsideTheImage: a step of a
busy machine. -/
theorem witness_busy_step : ∃ s t : State, s.errCode ≠ .decodeError ∧ s.sub ≠ .hdr ∧ s.commands = [] ∧
    s.pos ≤ s.stream.length ∧ s.busy = true ∧ (∃ a, outAddress s.npix 0 ≤ a) ∧ step s = .next t := by
  obtain ⟨t, h, -⟩ := next_of_nextIs (o := step (afterRgb [0x1F#8])) (check := fun _ => true) (by decide)
  exact ⟨_, t, by decide, by decide, by decide, by decide, by decide, ⟨_, Nat.le_refl _⟩, h⟩
/-- StepsConsumeOrEnd: its two clauses, at a boundary and in the middle of a RUN. -/
theorem witness_StepsConsumeOrEnd :
    (∃ s t : State, s.commands = [] ∧ s.pos ≤ s.stream.length ∧ s.busy = true ∧ s.sub ≠ .emit ∧ step s = .next t) ∧
    (∃ s t : State, s.commands = [] ∧ s.pos ≤ s.stream.length ∧ s.sub = .emit ∧ step s = .next t) := by
  obtain ⟨t, h, -⟩ := next_of_nextIs (o := step (afterRgb [0xC5#8])) (check := fun _ => true) (by decide)
  obtain ⟨u, g, -⟩ := next_of_nextIs (o := step (afterRgb [0xC5#8]).drive) (check := fun _ => true) (by decide)
  exact ⟨⟨_, t, by decide, by decide, by decide, by decide, h⟩, ⟨_, u, by decide, by decide, by decide, g⟩⟩
/-- EndedDecodesHold, StartResetsTheDecode: each of the three states. -/
theorem witness_ended_decodes :
    [SubState.idle, .done, .err].all (fun u =>
      let s := { afterRgb [] with sub := u, commands := [.start header32] }
      decide ((s.sub = .idle ∨ s.sub = .done ∨ s.sub = .err) ∧ s.commands = .start header32 :: []) &&
      decide ((s.queue []).commands = [])) = true ∧
    (⟨false, false, true, 0#8, false, true⟩ : Inputs).rst = false := by decide
/-- RstGoesToIdle: a machine in the middle of an operator. -/
theorem witness_RstGoesToIdle : ∃ (s : State) (i : Inputs), s.sub = .lit ∧ s.commands = .rst :: [] ∧ i.rst = true ∧
    i.start = true := ⟨(afterRgb [0xFE#8, 1#8]).drive.queue [.rst], ⟨true, true, false, 0#8, false, false⟩, by decide⟩
/-- The invariant in AWAIT_OPCODE before the first pixel. -/
theorem inv_afterHeader32 (bytes : List Byte) : Inv (afterHeader32 bytes) where
  outWf := by simp [afterHeader32, State.reset]
  posLimit := by show 14 < Config.counterLimit; decide
  cursorLimit := by show 0 < Config.counterLimit; decide
  posInStream := by simp [afterHeader32, header32]
  errCodeIff := by simp [afterHeader32, State.reset]
  noDecodeError := by simp [afterHeader32, State.reset]
  before := fun h => by simp [afterHeader32] at h
  after := fun _ => ⟨rfl, rfl, Nat.le_refl 14⟩
  doneAtEnd := fun h => by simp [afterHeader32] at h
  formatError := fun h => by simp [afterHeader32, State.reset] at h
  endError := fun h => by simp [afterHeader32, State.reset] at h
  numbered := trivial
  traceLength := rfl
  prevOfTrace := fun _ => rfl
  cacheOfTrace := fun _ k => by simp [afterHeader32, State.reset, lastWithHash, Vector.get]
  outOfTrace := fun e he => by simp [afterHeader32, State.reset] at he
  headerLatch := fun h => by simp [afterHeader32] at h
  tagOffset := fun h => by simp [afterHeader32] at h
  litLatch := fun h => by simp [afterHeader32] at h
  remBound := fun h => by simp [afterHeader32] at h
/-- The invariant after the first pixel. -/
theorem inv_afterRgb_index : Inv (afterRgb [0x1F#8, 0xC5#8]) where
  outWf := by decide
  posLimit := by decide
  cursorLimit := by decide
  posInStream := by decide
  errCodeIff := by decide
  noDecodeError := by decide
  before := fun h => absurd h (by decide)
  after := fun _ => ⟨by decide, by decide, by decide⟩
  doneAtEnd := fun h => absurd h (by decide)
  formatError := fun h => absurd h (by decide)
  endError := fun h => absurd h (by decide)
  numbered := ⟨by decide, by decide, trivial⟩
  traceLength := by decide
  prevOfTrace := by decide
  cacheOfTrace := by decide
  outOfTrace := by decide
  headerLatch := fun h => absurd h (by decide)
  tagOffset := fun h => absurd h (by decide)
  litLatch := fun h => absurd h (by decide)
  remBound := fun h => absurd h (by decide)
/-- LaterRunsChangeNoSlot. -/
theorem witness_LaterRunsChangeNoSlot : ∃ s t : State, Inv s ∧ s.sub = .op ∧ 0 < s.cursor ∧ exec (.run 5#6) s = .next t := by
  obtain ⟨t, h, -⟩ := next_of_nextIs (o := exec (.run 5#6) (afterRgb [0x1F#8, 0xC5#8])) (check := fun _ => true) (by decide)
  exact ⟨_, t, inv_afterRgb_index, by decide, by decide, h⟩
/-- StepKeepsInvariant. -/
theorem witness_StepKeepsInvariant : ∃ s t : State, Inv s ∧ step s = .next t ∧ s.busy = true := by
  obtain ⟨t, h, -⟩ := next_of_nextIs (o := step (afterRgb [0x1F#8, 0xC5#8])) (check := fun _ => true) (by decide)
  exact ⟨_, t, inv_afterRgb_index, h, by decide⟩
/-- The invariant in HEADER, before the first byte. -/
theorem inv_atHeader (S : List Byte) : Inv (atHeader S) where
  outWf := by simp [atHeader, State.reset]
  posLimit := by show 0 < Config.counterLimit; decide
  cursorLimit := by show 0 < Config.counterLimit; decide
  posInStream := Nat.zero_le _
  errCodeIff := by simp [atHeader, State.reset]
  noDecodeError := by simp [atHeader, State.reset]
  before := fun _ => ⟨rfl, rfl, rfl⟩
  after := fun h => by simp [atHeader, SubState.afterHeader] at h
  doneAtEnd := fun h => by simp [atHeader] at h
  formatError := fun h => by simp [atHeader, State.reset] at h
  endError := fun h => by simp [atHeader, State.reset] at h
  numbered := trivial
  traceLength := rfl
  prevOfTrace := fun _ => rfl
  cacheOfTrace := fun _ k => by simp [atHeader, State.reset, lastWithHash, Vector.get]
  outOfTrace := fun e he => by simp [atHeader, State.reset] at he
  headerLatch := fun _ => ⟨rfl, Nat.zero_le _, fun h => absurd h (by show ¬ 4 ≤ 0; decide)⟩
  tagOffset := fun h => by simp [atHeader] at h
  litLatch := fun h => by simp [atHeader] at h
  remBound := fun h => by simp [atHeader] at h
/-- StepFollowsTheStateGraph, ExhaustionAtABoundaryIsDone: a step out of HEADER, and one from AWAIT_OPCODE to DONE. -/
theorem witness_StepFollowsTheStateGraph :
    (∃ s t : State, Inv s ∧ step s = .next t ∧ s.state = .header ∧ s.commands.head? ≠ some .rst) ∧
    (∃ s t : State, Inv s ∧ step s = .next t ∧ s.sub ≠ .done ∧ s.state = .awaitOpcode ∧ t.sub = .done) := by
  obtain ⟨t, h, -⟩ := next_of_nextIs (o := step (atHeader [1#8])) (check := fun _ => true) (by decide)
  obtain ⟨u, g, hu⟩ := next_of_nextIs (o := step (afterHeader32 [])) (check := fun t => t.sub == .done) (by decide)
  exact ⟨⟨_, t, inv_atHeader [1#8], h, by decide, by decide⟩,
    ⟨_, u, inv_afterHeader32 [], g, by decide, by decide, by simpa using hu⟩⟩
/-- A byte offered in AWAIT_OPCODE, as a source may. -/
def offer (b : Byte) : Inputs := ⟨false, false, true, b, false, false⟩
/-- ClockKeepsInvariant, and ClockRefinesStep at an operator boundary. -/
theorem witness_clock : ∃ (i : Inputs) (b b' : Bench) (t : State), Inv b.machine ∧ clock [] i b = .next b' ∧
    b.obeys i = true ∧ i.rst = false ∧ b.machine.takesStart i = false ∧
    b.machine.pos ≤ b.machine.stream.length ∧ tick i b.machine = .next t ∧ t.sub = .emit := by
  obtain ⟨t, h, ht⟩ := next_of_nextIs (o := tick (offer 0x1F#8) (afterRgb [0x1F#8, 0xC5#8]))
    (check := fun t => t.sub == .emit) (by decide)
  have ho : Bench.obeys ⟨afterRgb [0x1F#8, 0xC5#8], ⟨false, none⟩⟩ (offer 0x1F#8) = true := by decide
  have hs : (afterRgb [0x1F#8, 0xC5#8]).takesStart (offer 0x1F#8) = false := by decide
  refine ⟨offer 0x1F#8, ⟨afterRgb [0x1F#8, 0xC5#8], ⟨false, none⟩⟩, ⟨t, Channel.next (afterRgb [0x1F#8, 0xC5#8]) (offer 0x1F#8)⟩, t,
    inv_afterRgb_index, ?_, ho, by decide, hs, by decide, h, by simpa using ht⟩
  simp [clock, ho, hs, h]
/-- ClockRefinesStep in the middle of an operator. -/
theorem witness_ClockRefinesStep_mid_operator : ∃ (i : Inputs) (b : Bench) (t : State), b.machine.atBoundary = false ∧
    b.obeys i = true ∧ i.rst = false ∧ b.machine.takesStart i = false ∧
    b.machine.pos ≤ b.machine.stream.length ∧ tick i b.machine = .next t ∧ t.hidden.cnt = 1#4 := by
  obtain ⟨t, h, ht⟩ := next_of_nextIs (o := tick (offer 1#8) (afterRgb [0xFE#8, 1#8]).drive)
    (check := fun t => t.hidden.cnt == 1#4) (by decide)
  exact ⟨offer 1#8, ⟨(afterRgb [0xFE#8, 1#8]).drive, ⟨false, none⟩⟩, t, by decide, by decide, by decide, by decide,
    by decide, h, by simpa using ht⟩
/-- InvariantGivesTheReachableFacts, OutWritesAscendWithoutGaps: before the first pixel and after it. -/
theorem witness_InvariantGivesTheReachableFacts :
    (∃ s : State, Inv s ∧ s.state = .awaitOpcode ∧ s.cursor = 0) ∧
    (∃ s : State, Inv s ∧ s.state = .awaitOpcode ∧ 0 < s.cursor) :=
  ⟨⟨afterHeader32 [], inv_afterHeader32 [], by decide, by decide⟩,
    ⟨afterRgb [0x1F#8, 0xC5#8], inv_afterRgb_index, by decide, by decide⟩⟩
/-- TheWrittenPartOfTheImageReads: the last written index, the next one, the first index outside. -/
theorem witness_TheWrittenPartOfTheImageReads : ∃ s : State, Inv s ∧ s.hdrValid = true ∧ (0 < s.cursor ∧ 0 < s.npix) ∧
    (s.cursor ≤ 1 ∧ 1 < s.npix) ∧ s.npix ≤ 6 :=
  ⟨afterRgb [0x1F#8, 0xC5#8], inv_afterRgb_index, by decide⟩
/-- DecodeEndsWithinTheBound, DecodeDependsOnTheStreamOnly: P1. -/
theorem witness_decodes : ∃ (S : List Byte) (s t : State), 62 * S.length < Config.counterLimit ∧
    decodeStream S s = .next t ∧ t.hdrValid = true := by
  obtain ⟨t, h, ht⟩ := next_of_nextIs (o := decodeStream (header32 ++ [0xC5#8]) State.reset)
    (check := fun t => t.hdrValid) (by decide)
  exact ⟨_, _, t, by decide, h, ht⟩
/-- OperatorsTakeTheirCycles: its hypotheses are those of StepRunsTheDecodedInstruction. -/
theorem witness_OperatorsTakeTheirCycles : ∃ (s : State) (i : Instr), s.sub = .op ∧
    decode .operator s.unread = .instr i [] ∧ edgesOf i = 7 := ⟨afterHeader32 [0xC5#8], .run 5#6, by decide⟩
/-- StallsChangeNothing, HandshakesMoveBytesAndPixels: a machine that waits for a byte, and one that offers a pixel. -/
theorem witness_stalls :
    ((afterRgb []).inReady = true ∧ (⟨false, false, false, 0#8, false, false⟩ : Inputs).inValid = false) ∧
    ((afterRgb [0x1F#8]).drive.outValid = true ∧
      (afterRgb [0x1F#8]).drive.takesStart ⟨false, false, false, 0#8, false, true⟩ = false) := by decide
/-- ProtocolBreachesAreRefused: `in_eos` with a byte; a byte other than `S[pos]`; `in_eos` before the end. -/
theorem witness_ProtocolBreachesAreRefused :
    ((⟨false, false, true, 0#8, true, true⟩ : Inputs).inValid = true ∧
      (⟨false, false, true, 0#8, true, true⟩ : Inputs).inEos = true) ∧
    ((afterRgb [0x1F#8]).busy = true ∧ (offer 0x1E#8).inValid = true ∧
      (afterRgb [0x1F#8]).unread.head? ≠ some (offer 0x1E#8).inData) ∧
    ((afterRgb [0x1F#8]).busy = true ∧ (⟨false, false, false, 0#8, true, true⟩ : Inputs).inEos = true ∧
      (afterRgb [0x1F#8]).unread ≠ []) := by decide
/-- ProtocolBreachesAreRefused: while a pixel is offered, `in_eos` held and then withdrawn; a byte offered and then
changed. Each `Bench` is what the first cycle leaves, and the second cycle is refused. -/
theorem witness_channel_memory :
    (∃ (i j : Inputs) (b b' : Bench), clock [] i b = .next b' ∧ i.rst = false ∧ b.machine.takesStart i = false ∧
      b'.channel.eosHeld = true ∧ j.rst = false ∧ b'.machine.takesStart j = false ∧ j.inEos = false) ∧
    (∃ (i j : Inputs) (b b' : Bench), clock [] i b = .next b' ∧ i.inValid = true ∧ b.machine.inReady = false ∧
      b'.channel.offered = some 0xC5#8 ∧ j.rst = false ∧ b'.machine.takesStart j = false ∧ j.inValid = true ∧
      0xC5#8 ≠ j.inData) :=
  ⟨⟨⟨false, false, false, 0#8, true, false⟩, offer 0#8, ⟨(afterRgb [0x1F#8]).drive, ⟨false, none⟩⟩,
      ⟨(afterRgb [0x1F#8]).drive, ⟨true, none⟩⟩, rfl, by decide⟩,
    ⟨offer 0xC5#8, offer 0xC4#8, ⟨(afterRgb [0x1F#8, 0xC5#8]).drive, ⟨false, none⟩⟩,
      ⟨(afterRgb [0x1F#8, 0xC5#8]).drive, ⟨false, some 0xC5#8⟩⟩, rfl, by decide⟩⟩
/-- Log entry 21: `rst` in the cycle of an output handshake drops the pixel. -/
theorem test_rst_in_a_handshake :
    (afterRgb [0x1F#8]).drive.outValid = true ∧
    ((afterRgb [0x1F#8]).drive.transition ⟨true, false, false, 0#8, true, true⟩).out = (afterRgb [0x1F#8]).out := by decide

end Sys2Proof.Tests
end

section
/-! PROOF. The invariant in three parts: the pixels, the engine, the latches. The counter limits stand apart, since only
a committed state keeps them: an item carried to its end passes through states that are not committed. -/

namespace Sys2Proof.Machine

/-! ### The record of emissions -/

theorem lastWithHash_cons (k : Fin 64) (e : Emission) (trace : List Emission) :
    lastWithHash k (e :: trace) = if slotHash e.pixel = k then e.pixel else lastWithHash k trace := by
  by_cases h : slotHash e.pixel = k <;> simp [lastWithHash, h]

theorem lastWithHash_eq_init_or_hash (k : Fin 64) (trace : List Emission) :
    lastWithHash k trace = Config.cacheInit ∨ slotHash (lastWithHash k trace) = k := by
  induction trace with
  | nil => exact .inl rfl
  | cons e rest ih =>
    rw [lastWithHash_cons]
    split
    next h => exact .inr h
    next => exact ih

theorem Numbered.index_lt {n : Nat} {trace : List Emission} (h : Numbered n trace) :
    ∀ e ∈ trace, e.index < trace.length := by
  induction trace with
  | nil => simp
  | cons d rest ih =>
    obtain ⟨hi, -, hr⟩ := h
    intro e he
    rw [List.length_cons]
    rcases List.mem_cons.1 he with rfl | he
    · omega
    · have := ih hr e he; omega

theorem Numbered.written_eq {n : Nat} {trace : List Emission} (h : Numbered n trace) :
    ∀ e ∈ trace, e.written = decide (e.index < n) := by
  induction trace with
  | nil => simp
  | cons d rest ih =>
    obtain ⟨hi, hw, hr⟩ := h
    intro e he
    rcases List.mem_cons.1 he with rfl | he
    · rw [hw, hi]
    · exact ih hr e he

theorem Numbered.indexes_eq_range {n : Nat} {trace : List Emission} (h : Numbered n trace) :
    trace.reverse.map Emission.index = List.range trace.length := by
  induction trace with
  | nil => rfl
  | cons d rest ih =>
    obtain ⟨hi, -, hr⟩ := h
    simp [ih hr, hi, List.range_succ]

/-! ### The pixels -/

/-- The part of the invariant about OUT and the pixel state (R27(c) to (f), R82). -/
structure PixelsTraced (s : State) : Prop where
  outWf : s.out.wf
  numbered : Numbered s.npix s.trace
  traceLength : s.trace.length = s.cursor
  prevOfTrace : s.sub ≠ .idle → s.prev = lastPixel s.trace
  cacheOfTrace : s.sub ≠ .idle → ∀ k, s.cache.get k = lastWithHash k s.trace
  outOfTrace : ∀ e ∈ s.trace, e.written = true → s.out.readPixel e.index = some e.pixel

/-- Only an empty record may see the size of the image change: HEADER loads it before the first pixel. -/
theorem PixelsTraced.frame {s t : State} (h : PixelsTraced s) (same : SamePixels s t)
    (hsize : s.trace ≠ [] → t.npix = s.npix) (hidle : s.sub ≠ .idle) : PixelsTraced t where
  outWf := same.out ▸ h.outWf
  numbered := by
    rw [same.trace]
    by_cases hnil : s.trace = []
    · rw [hnil]; trivial
    · rw [hsize hnil]; exact h.numbered
  traceLength := by rw [same.trace, same.cursor, h.traceLength]
  prevOfTrace _ := by rw [same.trace, same.prev, h.prevOfTrace hidle]
  cacheOfTrace _ k := by rw [same.trace, same.cache, h.cacheOfTrace hidle]
  outOfTrace := by rw [same.trace, same.out]; exact h.outOfTrace

/-- A reset forgets the record. OUT stays as it was (R119). -/
theorem PixelsTraced.of_reset {s : State} (hout : s.out.wf) (htrace : s.trace = []) (hcursor : s.cursor = 0)
    (hprev : s.sub ≠ .idle → s.prev = Config.prevInit)
    (hcache : s.sub ≠ .idle → ∀ k, s.cache.get k = Config.cacheInit) : PixelsTraced s where
  outWf := hout
  numbered := by rw [htrace]; trivial
  traceLength := by rw [htrace, hcursor]; rfl
  prevOfTrace h := by rw [htrace, hprev h]; rfl
  cacheOfTrace h k := by rw [htrace, hcache h k]; rfl
  outOfTrace := by simp [htrace]

theorem State.emit_cache_get (s : State) (p : Pixel) (k : Fin 64) :
    (s.emit p).cache.get k = if slotHash p = k then p else s.cache.get k := by
  simp [Vector.get_eq_getElem, Vector.getElem_set, Fin.ext_iff]

theorem State.emit_readPixel_other (s : State) (p : Pixel) (i : Nat) (h : i ≠ s.cursor) :
    (s.emit p).out.readPixel i = s.out.readPixel i := by
  rw [State.emit_out]
  cases s.inside
  · rfl
  · exact Memory.readPixel_writePixel_other _ _ _ _ h

/-- `Emit` takes the next number, so it touches no pixel emitted before. -/
theorem PixelsTraced.emit {s : State} (h : PixelsTraced s) (p : Pixel) : PixelsTraced (s.emit p) where
  outWf := State.emit_out_wf s p h.outWf
  numbered := ⟨h.traceLength.symm, by rw [h.traceLength]; rfl, h.numbered⟩
  traceLength := by simp [h.traceLength]
  prevOfTrace _ := rfl
  cacheOfTrace hidle k := by
    rw [State.emit_cache_get, State.emit_trace, lastWithHash_cons, h.cacheOfTrace hidle]
  outOfTrace e he hw := by
    rw [State.emit_trace] at he
    rcases List.mem_cons.1 he with rfl | he
    · have hin : s.inside = true := hw
      simp [hin]
    · have hlt := h.numbered.index_lt e he
      rw [h.traceLength] at hlt
      rw [State.emit_readPixel_other s p _ (Nat.ne_of_lt hlt), h.outOfTrace e he hw]

theorem PixelsTraced.emitTimes {s : State} (h : PixelsTraced s) (p : Pixel) (n : Nat) :
    PixelsTraced (s.emitTimes p n) := by
  induction n generalizing s with
  | zero => exact h
  | succ n ih => exact ih (h.emit p)

/-! ### The engine -/

/-- The part of the invariant about the position, the header and the errors (R27(a), (b), R18, R100). -/
structure EngineSound (s : State) : Prop where
  posInStream : s.pos ≤ s.stream.length
  errCodeIff : s.errCode = .none ↔ s.sub ≠ .err
  noDecodeError : s.errCode ≠ .decodeError
  before : s.sub = .idle ∨ s.sub = .hdr → s.NothingYet
  after : s.sub.afterHeader = true → s.HeaderRead
  doneAtEnd : s.sub = .done → s.pos = s.stream.length
  formatError : s.errCode = .formatError → s.NothingYet ∧ s.errPos = 0 ∧ s.pos = 4
  endError : s.errCode = .unexpectedEndOfStream →
    s.pos = s.stream.length ∧ ((s.NothingYet ∧ s.errPos = 0) ∨ (s.HeaderRead ∧ 14 ≤ s.errPos ∧ s.errPos ≤ s.pos))

theorem SubState.afterHeader_ne {x : SubState} (h : x.afterHeader = true) : x ≠ .idle ∧ x ≠ .hdr ∧ x ≠ .err := by
  cases x <;> simp_all [SubState.afterHeader]

theorem EngineSound.of_before {s : State} (hpos : s.pos ≤ s.stream.length) (herr : s.errCode = .none)
    (hsub : s.sub = .idle ∨ s.sub = .hdr) (hnothing : s.NothingYet) : EngineSound s where
  posInStream := hpos
  errCodeIff := by rcases hsub with h | h <;> simp [herr, h]
  noDecodeError := by simp [herr]
  before _ := hnothing
  after h := by rcases hsub with h' | h' <;> simp [h', SubState.afterHeader] at h
  doneAtEnd h := by simp [h] at hsub
  formatError h := by simp [herr] at h
  endError h := by simp [herr] at h

theorem EngineSound.of_afterHeader {s : State} (hpos : s.pos ≤ s.stream.length) (herr : s.errCode = .none)
    (hsub : s.sub.afterHeader = true) (hread : s.HeaderRead) (hdone : s.sub = .done → s.pos = s.stream.length) :
    EngineSound s :=
  have ⟨hidle, hhdr, hne⟩ := SubState.afterHeader_ne hsub
  { posInStream := hpos
    errCodeIff := by simp [herr, hne]
    noDecodeError := by simp [herr]
    before h := by simp [hidle, hhdr] at h
    after _ := hread
    doneAtEnd := hdone
    formatError h := by simp [herr] at h
    endError h := by simp [herr] at h }

/-- R101: the magic was wrong. -/
theorem EngineSound.raise_formatError {s : State} (hnothing : s.NothingYet) (hpos : s.pos = 4)
    (hlen : s.pos ≤ s.stream.length) : EngineSound (s.raise .formatError 0) where
  posInStream := hlen
  errCodeIff := by simp
  noDecodeError := by simp
  before h := by simp at h
  after h := by simp [SubState.afterHeader] at h
  doneAtEnd h := by simp at h
  formatError _ := ⟨hnothing, rfl, hpos⟩
  endError h := by simp at h

/-- R103: the stream ended inside the item at `q`. -/
theorem EngineSound.raise_unexpectedEnd {s : State} {q : Nat} (hpos : s.pos = s.stream.length)
    (hitem : (s.NothingYet ∧ q = 0) ∨ (s.HeaderRead ∧ 14 ≤ q ∧ q ≤ s.pos)) :
    EngineSound (s.raise .unexpectedEndOfStream q) where
  posInStream := hpos.le
  errCodeIff := by simp
  noDecodeError := by simp
  before h := by simp at h
  after h := by simp [SubState.afterHeader] at h
  doneAtEnd h := by simp at h
  formatError h := by simp at h
  endError _ := ⟨hpos, hitem⟩

theorem EngineSound.errCode_eq_none {s : State} (h : EngineSound s) (hsub : s.sub ≠ .err) : s.errCode = .none :=
  h.errCodeIff.2 hsub

/-! ### The latches -/

/-- The part of the invariant about the latches of the item in progress (R93). -/
structure LatchesSound (s : State) : Prop where
  headerLatch : s.sub = .hdr → s.pos = s.hidden.cnt.toNat ∧ s.hidden.cnt.toNat ≤ 13 ∧
    (4 ≤ s.hidden.cnt.toNat →
      beWord s.hidden.hbuf[0] s.hidden.hbuf[1] s.hidden.hbuf[2] s.hidden.hbuf[3] = Config.magic)
  tagOffset : s.sub = .lit ∨ s.sub = .luma2 → 14 ≤ s.hidden.opPos ∧ s.hidden.opPos < s.pos
  litLatch : s.sub = .lit →
    (s.hidden.b0 = 0xFE#8 ∧ s.hidden.cnt.toNat < 3) ∨ (s.hidden.b0 = 0xFF#8 ∧ s.hidden.cnt.toNat < 4)
  remBound : s.sub = .emit → s.hidden.rem.toNat ≤ 61

/-- Between two items the latches are dead (R21). -/
theorem LatchesSound.of_boundary {s : State} (hb : s.atBoundary = true) (hh : s.sub ≠ .hdr) : LatchesSound s where
  headerLatch h := absurd h hh
  tagOffset h := by rcases h with h | h <;> simp [State.atBoundary, h] at hb
  litLatch h := by simp [State.atBoundary, h] at hb
  remBound h := by simp [State.atBoundary, h] at hb

theorem LatchesSound.of_emit {s : State} (hsub : s.sub = .emit) (hrem : s.hidden.rem.toNat ≤ 61) : LatchesSound s where
  headerLatch h := by simp [hsub] at h
  tagOffset h := by simp [hsub] at h
  litLatch h := by simp [hsub] at h
  remBound _ := hrem

/-! ### The whole -/

/-- The invariant without the two counter limits. -/
structure Linked (s : State) : Prop where
  pixels : PixelsTraced s
  engine : EngineSound s
  latches : LatchesSound s

theorem inv_iff_linked (s : State) :
    Inv s ↔ Linked s ∧ s.pos < Config.counterLimit ∧ s.cursor < Config.counterLimit := by
  constructor
  · intro h
    exact ⟨⟨{ h with }, { h with }, { h with }⟩, h.posLimit, h.cursorLimit⟩
  · rintro ⟨⟨hpix, heng, hlat⟩, hpos, hcur⟩
    exact { hpix, heng, hlat with posLimit := hpos, cursorLimit := hcur }

/-- The end of a step gives the counter limits (V7). -/
theorem Linked.inv_of_commit {s t : State} (h : Linked s) (hc : s.commit = .next t) : Inv t := by
  obtain ⟨rfl, hpos, hcur⟩ := (State.commit_eq_next_iff s t).1 hc
  exact (inv_iff_linked s).2 ⟨h, hpos, hcur⟩

/-- The invariant does not speak of the commands to come. -/
theorem Inv.queue {s : State} (h : Inv s) (q : List Command) : Inv (s.queue q) := { h with }

theorem Linked.of_powerOnReset {s : State} (hout : s.out.wf) : Linked s.powerOnReset where
  pixels := .of_reset hout rfl rfl (absurd rfl) (absurd rfl)
  engine := .of_before (Nat.zero_le _) rfl (.inl rfl) ⟨rfl, rfl, rfl⟩
  latches := .of_boundary rfl (by simp)

theorem Linked.of_perDecodeReset {s : State} (hout : s.out.wf) : Linked s.perDecodeReset where
  pixels := .of_reset hout rfl rfl (fun _ => rfl) fun _ k => by simp [Vector.get_eq_getElem]
  engine := .of_before (Nat.zero_le _) rfl (.inr rfl) ⟨rfl, rfl, rfl⟩
  latches :=
    { headerLatch := fun _ => by simp
      tagOffset := by simp
      litLatch := by simp
      remBound := by simp }

end Sys2Proof.Machine
end

section
/-! PROOF. What one item can do at the place where the step decodes it: the operators (R85, R87, R103) and HEADER (R61
to R63). The latches it leaves are of no interest here. -/

namespace Sys2Proof.Machine

/-- The hidden registers replaced. -/
def State.latch (s : State) (h : Hidden) : State := { s with hidden := h }

/-! ### What the decoder can answer -/

theorem decodeOperator_eq_instr {bs rest : List Byte} {i : Instr} (h : decodeOperator bs = .instr i rest) :
    bs ≠ [] ∧ i.position = .operator := by
  cases bs with
  | nil => simp [decodeOperator] at h
  | cons b0 more =>
    refine ⟨List.cons_ne_nil _ _, ?_⟩
    simp only [decodeOperator] at h
    repeat' split at h
    all_goals cases h
    all_goals rfl

/-- An operator is rejected at the end of the stream, or inside one that has operand bytes. -/
theorem decodeOperator_eq_rejected {bs : List Byte} {r : Reject} (h : decodeOperator bs = .rejected r) :
    (r = .exhausted ∧ bs = []) ∨
      ∃ b0 tag, r = .operatorEnd b0 ∧ classify b0 = some tag ∧ tag.operandBytes ≠ 0 := by
  cases bs with
  | nil => cases h; exact .inl ⟨rfl, rfl⟩
  | cons b0 more =>
    right
    simp only [decodeOperator] at h
    split at h
    next hc => split at h <;> cases h; exact ⟨b0, _, rfl, hc, by decide⟩
    next hc => split at h <;> cases h; exact ⟨b0, _, rfl, hc, by decide⟩
    next => cases h
    next => cases h
    next hc => split at h <;> cases h; exact ⟨b0, _, rfl, hc, by decide⟩
    next => cases h
    next hc => exact absurd hc (classify_ne_none b0)

theorem decodeHeader_eq_instr {bs rest : List Byte} {i : Instr} (h : decodeHeader bs = .instr i rest) :
    ∃ m w ht c cs, i = .header m w ht c cs := by
  unfold decodeHeader at h
  repeat' split at h
  all_goals cases h
  exact ⟨_, _, _, _, _, rfl⟩

theorem decodeHeader_eq_rejected {bs : List Byte} {r : Reject} (h : decodeHeader bs = .rejected r) :
    r = .headerEnd ∨ r = .badMagic := by
  unfold decodeHeader at h
  repeat' split at h
  all_goals cases h
  · exact .inl rfl
  · exact .inr rfl
  · exact .inl rfl

/-! ### An operator -/

/-- What running the operator at `pos` can do: end the decode, consume its bytes and emit its pixels, or be cut
short. -/
inductive OperatorEffect (s : State) : State → Prop where
  | ended (hend : s.stream.length ≤ s.pos) : OperatorEffect s { s with sub := .done }
  | emitted (h : Hidden) (len n : Nat) (p : Pixel) (hlen : 0 < len) (hfit : s.pos + len ≤ s.stream.length) :
    OperatorEffect s (((s.latch h).consume len).emitTimes p n)
  | cutShort (h : Hidden) : OperatorEffect s ((s.latch h).endOfStream s.pos)

theorem State.fits_iff (s : State) (n : Nat) : s.fits n = true ↔ s.pos + n ≤ s.stream.length := by simp [State.fits]

/-- The pixels of an operator, when only latches and `pos` have changed before. -/
theorem OperatorEffect.of_produce {s u : State} {len n : Nat} {p : Pixel} (hu : u = (s.latch u.hidden).consume len)
    (hlen : 0 < len) (hfit : s.pos + len ≤ s.stream.length) : OperatorEffect s (u.produce p n) := by
  have hpend : u.latchPend p 0#6 = (s.latch { u.hidden with pend := p, rem := 0#6 }).consume len := by rw [hu]; rfl
  rw [State.produce, hpend]
  exact .emitted _ len n p hlen hfit

theorem exec_eq_commit {i : Instr} {s : State} (hi : i.position = .operator) (hbyte : s.pos < s.stream.length) :
    ∃ t, OperatorEffect s t ∧ exec i s = t.commit := by
  cases i with
  | header => cases hi
  | rgb r g b =>
    simp only [exec, execRgb]
    split
    next hfit => exact ⟨_, .of_produce (len := 4) rfl (by decide) ((s.fits_iff 4).1 hfit), rfl⟩
    next => exact ⟨_, .cutShort _, rfl⟩
  | rgba r g b a =>
    simp only [exec, execRgba]
    split
    next hfit => exact ⟨_, .of_produce (len := 5) rfl (by decide) ((s.fits_iff 5).1 hfit), rfl⟩
    next => exact ⟨_, .cutShort _, rfl⟩
  | index k => exact ⟨_, .of_produce (len := 1) rfl (by decide) hbyte, rfl⟩
  | diff fr fg fb => exact ⟨_, .of_produce (len := 1) rfl (by decide) hbyte, rfl⟩
  | luma fg frg fbg =>
    simp only [exec, execLuma]
    split
    next hfit => exact ⟨_, .of_produce (len := 2) rfl (by decide) ((s.fits_iff 2).1 hfit), rfl⟩
    next => exact ⟨_, .cutShort _, rfl⟩
  | run n => exact ⟨_, .of_produce (len := 1) rfl (by decide) hbyte, rfl⟩

theorem takeReject_operatorEnd_eq_commit {b0 : Byte} {tag : Tag} (s : State) (htag : classify b0 = some tag)
    (hop : tag.operandBytes ≠ 0) : ∃ t, OperatorEffect s t ∧ takeReject (.operatorEnd b0) s = t.commit := by
  simp only [takeReject, htag]
  cases tag with
  | rgb => exact ⟨_, .cutShort _, rfl⟩
  | rgba => exact ⟨_, .cutShort _, rfl⟩
  | luma => exact ⟨_, .cutShort _, rfl⟩
  | index => exact absurd rfl hop
  | diff => exact absurd rfl hop
  | run => exact absurd rfl hop

/-- R85: what one step at an operator boundary can do. -/
theorem runItem_operator_eq_commit (s : State) : ∃ t, OperatorEffect s t ∧ runItem .operator s = t.commit := by
  unfold runItem
  split
  next hd =>
    obtain ⟨hne, hi⟩ := decodeOperator_eq_instr hd
    exact exec_eq_commit hi (Nat.lt_of_not_le fun hle => hne (s.unread_eq_nil_iff.2 hle))
  next hd =>
    obtain ⟨rfl, hnil⟩ | ⟨b0, tag, rfl, htag, hop⟩ := decodeOperator_eq_rejected hd
    · exact ⟨_, .ended (s.unread_eq_nil_iff.1 hnil), rfl⟩
    · exact takeReject_operatorEnd_eq_commit s htag hop

/-! ### HEADER -/

/-- What running HEADER can do: load the registers, end with the stream, or find another magic. -/
inductive HeaderEffect (s : State) : State → Prop where
  | loaded (l : Hidden) (h : Header) (hmagic : h.magic = Config.magic) (hfit : s.pos + 14 ≤ s.stream.length) :
    HeaderEffect s (((s.latch l).consume 14).loadHeader h)
  | ended (l : Hidden) : HeaderEffect s ((s.latch l).endOfStream 0)
  | mismatched (l : Hidden) (hfit : s.pos + 4 ≤ s.stream.length) :
    HeaderEffect s (((s.latch l).consume 4).raise .formatError 0)

theorem execHeader_eq_commit (m w ht : BitVec 32) (c cs : Byte) (s : State) :
    ∃ t, HeaderEffect s t ∧ execHeader m w ht c cs s = t.commit := by
  unfold execHeader
  split
  next hfour =>
    split
    next hmagic =>
      split
      next hfit => exact ⟨_, .loaded _ _ hmagic ((s.fits_iff 14).1 hfit), rfl⟩
      next => exact ⟨_, .ended _, rfl⟩
    next => exact ⟨_, .mismatched _ ((s.fits_iff 4).1 hfour), rfl⟩
  next => exact ⟨_, .ended _, rfl⟩

theorem takeReject_badMagic_eq_commit (s : State) : ∃ t, HeaderEffect s t ∧ takeReject .badMagic s = t.commit := by
  simp only [takeReject]
  split
  next m0 m1 m2 m3 more hunread =>
    have hlen : s.stream.length - s.pos = more.length + 4 := by rw [← s.unread_length, hunread]; rfl
    exact ⟨_, .mismatched _ (by omega), rfl⟩
  next => exact ⟨_, .ended _, rfl⟩

/-- R61: what the step at the first byte of the record can do. -/
theorem runItem_header_eq_commit (s : State) : ∃ t, HeaderEffect s t ∧ runItem .header s = t.commit := by
  unfold runItem
  split
  next hd =>
    obtain ⟨m, w, ht, c, cs, rfl⟩ := decodeHeader_eq_instr hd
    exact execHeader_eq_commit m w ht c cs s
  next hd =>
    obtain rfl | rfl := decodeHeader_eq_rejected hd
    · exact ⟨_, .ended _, rfl⟩
    · exact takeReject_badMagic_eq_commit s

/-! ### The step with nothing commanded -/

theorem State.commit_idem {s t : State} (h : s.commit = .next t) : s = t ∧ t.commit = .next t := by
  obtain ⟨rfl, -, -⟩ := (State.commit_eq_next_iff s t).1 h
  exact ⟨rfl, h⟩

/-- R97. -/
theorem advance_of_not_busy {s : State} (h : s.busy = false) : advance s = .next s := by
  unfold advance
  cases hsub : s.sub <;> simp_all [State.busy, State.state, SubState.engine]

theorem advance_of_midItem {s : State} (h : s.atBoundary = false) : advance s = s.finish.commit := by
  unfold advance
  cases hsub : s.sub <;> simp_all [State.atBoundary]

theorem State.runs_of_busy_atBoundary {s : State} (hbusy : s.busy = true) (hb : s.atBoundary = true) :
    (s.sub = .hdr ∧ s.hidden.cnt = 0#4) ∨ s.sub = .op := by
  cases hsub : s.sub <;> simp_all [State.busy, State.state, SubState.engine, State.atBoundary]

/-- R85, R97: a machine that is not busy holds; HEADER or an operator runs where it stands next; an item in progress is
carried to its end. -/
theorem advance_cases {s t : State} (h : advance s = .next t) :
    (s.busy = false ∧ t = s) ∨ (t.commit = .next t ∧
      ((s.sub = .hdr ∧ s.hidden.cnt = 0#4 ∧ HeaderEffect s t) ∨ (s.sub = .op ∧ OperatorEffect s t) ∨
        (s.atBoundary = false ∧ t = s.finish))) := by
  cases hbusy : s.busy with
  | false =>
    rw [advance_of_not_busy hbusy] at h
    cases h
    exact .inl ⟨rfl, rfl⟩
  | true =>
    right
    cases hb : s.atBoundary with
    | false =>
      rw [advance_of_midItem hb] at h
      obtain ⟨rfl, hc⟩ := State.commit_idem h
      exact ⟨hc, .inr (.inr ⟨rfl, rfl⟩)⟩
    | true =>
      rcases State.runs_of_busy_atBoundary hbusy hb with ⟨hsub, hcnt⟩ | hsub
      · obtain ⟨u, heff, heq⟩ := runItem_header_eq_commit s
        rw [advance, hsub] at h
        simp only [hcnt, if_true, heq] at h
        obtain ⟨rfl, hc⟩ := State.commit_idem h
        exact ⟨hc, .inl ⟨hsub, hcnt, heff⟩⟩
      · obtain ⟨u, heff, heq⟩ := runItem_operator_eq_commit s
        rw [advance, hsub] at h
        simp only [heq] at h
        obtain ⟨rfl, hc⟩ := State.commit_idem h
        exact ⟨hc, .inr (.inl ⟨hsub, heff⟩)⟩

/-! ### Both keep the invariant -/

theorem Linked.emitTimes {s : State} (h : Linked s) (hsub : s.sub.afterHeader = true) (p : Pixel) (n : Nat) :
    Linked (s.emitTimes p n) := by
  obtain ⟨-, -, hne⟩ := SubState.afterHeader_ne hsub
  refine ⟨h.pixels.emitTimes p n, .of_afterHeader ?_ ?_ ?_ ?_ ?_, ?_, ?_, ?_, ?_⟩
  · simpa using h.engine.posInStream
  · simpa using h.engine.errCode_eq_none hne
  · simpa using hsub
  · simpa [State.HeaderRead] using h.engine.after hsub
  · simpa using h.engine.doneAtEnd
  · simpa using h.latches.headerLatch
  · simpa using h.latches.tagOffset
  · simpa using h.latches.litLatch
  · simpa using h.latches.remBound

/-- R103: the stream has ended inside the item at `q`, whatever the latches hold. -/
theorem Linked.endOfStream {s : State} {q : Nat} (h : Linked s) (hidle : s.sub ≠ .idle) (l : Hidden)
    (hitem : (s.NothingYet ∧ q = 0) ∨ (s.HeaderRead ∧ 14 ≤ q ∧ q ≤ s.pos)) : Linked ((s.latch l).endOfStream q) where
  pixels := h.pixels.frame ⟨rfl, rfl, rfl, rfl, rfl⟩ (fun _ => rfl) hidle
  engine := by
    have hlen := h.engine.posInStream
    refine .raise_unexpectedEnd rfl (hitem.imp_right ?_)
    rintro ⟨⟨hvalid, hmagic, hpos⟩, hq, hqpos⟩
    exact ⟨⟨hvalid, hmagic, hpos.trans hlen⟩, hq, hqpos.trans hlen⟩
  latches := .of_boundary rfl (by simp [State.endOfStream])

theorem OperatorEffect.linked {s t : State} (h : OperatorEffect s t) (hs : Linked s) (hsub : s.sub = .op) :
    Linked t := by
  have hafter : s.sub.afterHeader = true := by rw [hsub]; rfl
  have hidle : s.sub ≠ .idle := by simp [hsub]
  have hnone := hs.engine.errCode_eq_none (by simp [hsub])
  have hread := hs.engine.after hafter
  have ⟨hvalid, hmagic, hpos⟩ := hread
  cases h with
  | ended hend =>
    have hlen := hs.engine.posInStream
    exact
      { pixels := hs.pixels.frame ⟨rfl, rfl, rfl, rfl, rfl⟩ (fun _ => rfl) hidle
        engine := .of_afterHeader hlen hnone rfl hread fun _ => Nat.le_antisymm hlen hend
        latches := .of_boundary rfl (by simp) }
  | emitted l len n p hlen hfit =>
    have hconsumed : Linked ((s.latch l).consume len) :=
      { pixels := hs.pixels.frame ⟨rfl, rfl, rfl, rfl, rfl⟩ (fun _ => rfl) hidle
        engine := .of_afterHeader hfit hnone hafter ⟨hvalid, hmagic, hpos.trans (Nat.le_add_right _ _)⟩
          fun h => by simp [State.latch, hsub] at h
        latches := .of_boundary (by simp [State.atBoundary, State.latch, hsub]) (by simp [State.latch, hsub]) }
    exact hconsumed.emitTimes hafter p n
  | cutShort l => exact hs.endOfStream hidle l (.inr ⟨hread, hpos, le_rfl⟩)

theorem HeaderEffect.linked {s t : State} (h : HeaderEffect s t) (hs : Linked s) (hsub : s.sub = .hdr)
    (hpos : s.pos = 0) : Linked t := by
  have hidle : s.sub ≠ .idle := by simp [hsub]
  have hnone := hs.engine.errCode_eq_none (by simp [hsub])
  have hnothing := hs.engine.before (.inr hsub)
  cases h with
  | loaded l h hmagic hfit =>
    obtain ⟨-, -, htrace⟩ := hnothing
    exact
      { pixels := hs.pixels.frame ⟨rfl, rfl, rfl, rfl, rfl⟩ (absurd htrace) hidle
        engine := .of_afterHeader hfit hnone rfl ⟨rfl, hmagic, Nat.le_add_left _ _⟩ fun h => by simp at h
        latches := .of_boundary rfl (by simp) }
  | ended l => exact hs.endOfStream hidle l (.inl ⟨hnothing, rfl⟩)
  | mismatched l hfit =>
    exact
      { pixels := hs.pixels.frame ⟨rfl, rfl, rfl, rfl, rfl⟩ (fun _ => rfl) hidle
        engine := .raise_formatError hnothing (by simp [State.latch, hpos]) hfit
        latches := .of_boundary rfl (by simp) }

end Sys2Proof.Machine
end

section
/-! PROOF. What one clock edge does in each sub-state (R93), and that it keeps the invariant and, outside HEADER, the
setting of the decode. -/

namespace Sys2Proof.Machine

/-! ### A byte of an operator -/

/-- The sub-states in the middle of an operator. -/
def SubState.midOperator : SubState → Bool
  | .lit => true
  | .luma2 => true
  | .emit => true
  | .idle => false
  | .hdr => false
  | .op => false
  | .done => false
  | .err => false

theorem SubState.midOperator_spec {x : SubState} (h : x.midOperator = true) :
    x.afterHeader = true ∧ x ≠ .hdr ∧ x ≠ .done := by
  cases x <;> simp_all [SubState.midOperator, SubState.afterHeader]

/-- A byte of an operator is taken: the latches, `pos` and the sub-state change. -/
inductive State.TakesByte (s : State) : State → Prop where
  | intro (h : Hidden) (x : SubState) (hx : x.midOperator = true) :
    s.TakesByte { (s.latch h).consume 1 with sub := x }

theorem State.takesByte_opByte (s : State) (b : Byte) : s.TakesByte (s.opByte b) := by
  unfold State.opByte
  split
  next => exact .intro _ .lit rfl
  next => exact .intro _ .lit rfl
  next => exact .intro _ .luma2 rfl
  next => exact .intro _ .emit rfl
  next => exact .intro _ .emit rfl
  next => exact .intro _ .emit rfl
  next h => exact absurd h (classify_ne_none b)

theorem State.takesByte_litByte (s : State) (b : Byte) (hsub : s.sub = .lit) : s.TakesByte (s.litByte b) := by
  unfold State.litByte
  split
  next => exact .intro (s.latchOperand b).hidden s.sub (by rw [hsub]; rfl)
  next => exact .intro _ .emit rfl

theorem State.takesByte_lumaSecond (s : State) (b : Byte) : s.TakesByte (s.lumaSecond b) := .intro _ .emit rfl

/-! ### The latches a byte leaves are sound -/

theorem LatchesSound.opByte {s : State} (hpos : 14 ≤ s.pos) (b : Byte) : LatchesSound (s.opByte b) := by
  unfold State.opByte
  split
  next hc =>
    exact
      { headerLatch := by simp
        tagOffset := fun _ => ⟨hpos, Nat.lt_succ_self _⟩
        litLatch := fun _ => .inl ⟨eq_of_classify_rgb b hc, by simp⟩
        remBound := by simp }
  next hc =>
    exact
      { headerLatch := by simp
        tagOffset := fun _ => ⟨hpos, Nat.lt_succ_self _⟩
        litLatch := fun _ => .inr ⟨eq_of_classify_rgba b hc, by simp⟩
        remBound := by simp }
  next =>
    exact
      { headerLatch := by simp
        tagOffset := fun _ => ⟨hpos, Nat.lt_succ_self _⟩
        litLatch := by simp
        remBound := by simp }
  next => exact .of_emit rfl (by simp)
  next => exact .of_emit rfl (by simp)
  next hc => exact .of_emit rfl (eq_of_classify_run b hc).2
  next hc => exact absurd hc (classify_ne_none b)

theorem LatchesSound.litByte {s : State} (h : LatchesSound s) (hsub : s.sub = .lit) (b : Byte) :
    LatchesSound (s.litByte b) := by
  obtain ⟨hop, hoppos⟩ := h.tagOffset (.inl hsub)
  unfold State.litByte
  split
  next hmore =>
    have hcnt : (s.hidden.cnt + 1#4).toNat = s.hidden.cnt.toNat + 1 := by
      apply BitVec.toNat_add_of_lt
      rcases h.litLatch hsub with ⟨-, hlt⟩ | ⟨-, hlt⟩ <;> simp <;> omega
    refine ⟨by simp [hsub], fun _ => ⟨hop, hoppos.trans (Nat.lt_succ_self _)⟩, fun _ => ?_, by simp [hsub]⟩
    rw [State.consume_hidden, State.latchOperand_hidden, hcnt]
    rcases h.litLatch hsub with ⟨hb, -⟩ | ⟨hb, -⟩
    · exact .inl ⟨hb, by simpa [State.litTotal, hb] using hmore⟩
    · exact .inr ⟨hb, by simpa [State.litTotal, hb] using hmore⟩
  next => exact .of_emit rfl (by simp)

theorem LatchesSound.lumaSecond (s : State) (b : Byte) : LatchesSound (s.lumaSecond b) :=
  .of_emit rfl (by simp [State.lumaSecond])

/-! ### The invariant in an operator -/

theorem Linked.of_takesByte {s t : State} (hs : Linked s) (hsub : s.sub.afterHeader = true)
    (hbyte : s.pos < s.stream.length) (ht : s.TakesByte t) (hlat : LatchesSound t) : Linked t := by
  obtain ⟨h, x, hx⟩ := ht
  obtain ⟨hidle, -, hne⟩ := SubState.afterHeader_ne hsub
  obtain ⟨hx, -, hdone⟩ := SubState.midOperator_spec hx
  obtain ⟨hvalid, hmagic, hpos⟩ := hs.engine.after hsub
  exact
    { pixels := hs.pixels.frame ⟨rfl, rfl, rfl, rfl, rfl⟩ (fun _ => rfl) hidle
      engine := .of_afterHeader hbyte (hs.engine.errCode_eq_none hne) hx
        ⟨hvalid, hmagic, hpos.trans (Nat.le_succ _)⟩ fun h => absurd h hdone
      latches := hlat }

theorem Linked.emitPend {s : State} (hs : Linked s) (hsub : s.sub = .emit) : Linked s.emitPend := by
  have hafter : s.sub.afterHeader = true := by rw [hsub]; rfl
  have hlen := hs.engine.posInStream
  have hnone := hs.engine.errCode_eq_none (by simp [hsub])
  have hread := hs.engine.after hafter
  have hpix := hs.pixels.emit s.hidden.pend
  have hidle : (s.emit s.hidden.pend).sub ≠ .idle := by simp [hsub]
  unfold State.emitPend
  split
  next =>
    exact
      { pixels := hpix.frame ⟨rfl, rfl, rfl, rfl, rfl⟩ (fun _ => rfl) hidle
        engine := .of_afterHeader hlen hnone rfl hread (by simp)
        latches := .of_boundary rfl (by simp) }
  next hrem =>
    have hlast := hs.latches.remBound hsub
    exact
      { pixels := hpix.frame ⟨rfl, rfl, rfl, rfl, rfl⟩ (fun _ => rfl) hidle
        engine := .of_afterHeader hlen hnone hafter hread (by simp [hsub])
        latches := .of_emit hsub (by simp only [State.emit_hidden]; bv_omega) }

/-- R103 at the clock: the stream has ended at the byte that is asked for. -/
theorem Linked.raise_unexpectedEnd {s : State} {q : Nat} (hs : Linked s) (hidle : s.sub ≠ .idle)
    (hend : s.stream.length ≤ s.pos) (hitem : (s.NothingYet ∧ q = 0) ∨ (s.HeaderRead ∧ 14 ≤ q ∧ q ≤ s.pos)) :
    Linked (s.raise .unexpectedEndOfStream q) where
  pixels := hs.pixels.frame ⟨rfl, rfl, rfl, rfl, rfl⟩ (fun _ => rfl) hidle
  engine := .raise_unexpectedEnd (Nat.le_antisymm hs.engine.posInStream hend) hitem
  latches := .of_boundary rfl (by simp)

/-- R87 at the clock. -/
theorem Linked.finalise {s : State} (hs : Linked s) (hsub : s.sub = .op) (hend : s.stream.length ≤ s.pos) :
    Linked (s.finalise Config.strictPixelCount) :=
  OperatorEffect.linked (.ended hend) hs hsub

/-! ### A byte of the header -/

/-- A latched header byte that does not complete the record; the fourth one has been judged (R62). -/
theorem LatchesSound.latchHeaderByte {s : State} (h : LatchesSound s) (hsub : s.sub = .hdr) (b : Byte)
    (hgood : ¬(s.hidden.cnt = 3#4 ∧
      beWord s.hidden.hbuf[0] s.hidden.hbuf[1] s.hidden.hbuf[2] b ≠ Config.magic))
    (hmore : s.hidden.cnt ≠ 13#4) : LatchesSound ((s.latchHeaderByte b).consume 1) := by
  obtain ⟨hpos, hle, hmagic⟩ := h.headerLatch hsub
  have hlt : s.hidden.cnt.toNat < 13 := Nat.lt_of_le_of_ne hle fun he => hmore (BitVec.eq_of_toNat_eq he)
  have hcnt : (s.hidden.cnt + 1#4).toNat = s.hidden.cnt.toNat + 1 := BitVec.toNat_add_of_lt (by simp; omega)
  refine ⟨fun _ => ?_, by simp [hsub], by simp [hsub], by simp [hsub]⟩
  rw [State.consume_hidden, State.consume_pos, State.latchHeaderByte_hidden, State.latchHeaderByte_pos, hcnt]
  refine ⟨by rw [hpos], hlt, fun hfour => ?_⟩
  simp only [getElem_putByte]
  by_cases hthree : s.hidden.cnt = 3#4
  · simpa [hthree] using hgood
  · have hge : 4 ≤ s.hidden.cnt.toNat := by
      have hne : s.hidden.cnt.toNat ≠ 3 := fun he => hthree (BitVec.eq_of_toNat_eq he)
      omega
    have hkeep (j : Nat) (hj : j < 4) : s.hidden.cnt.toNat ≠ j := by omega
    simpa [hkeep] using hmagic hge

theorem Linked.hdrByte {s : State} (hs : Linked s) (hsub : s.sub = .hdr) (hbyte : s.pos < s.stream.length) (b : Byte) :
    Linked (s.hdrByte b) := by
  have hidle : s.sub ≠ .idle := by simp [hsub]
  have hnone := hs.engine.errCode_eq_none (by simp [hsub])
  have hnothing := hs.engine.before (.inr hsub)
  obtain ⟨hpos, hcnt, hmagic⟩ := hs.latches.headerLatch hsub
  unfold State.hdrByte
  dsimp only
  split
  next hbad =>
    obtain ⟨hthree, -⟩ := hbad
    exact
      { pixels := hs.pixels.frame ⟨rfl, rfl, rfl, rfl, rfl⟩ (fun _ => rfl) hidle
        engine := .raise_formatError hnothing (by simp [hpos, hthree]) hbyte
        latches := .of_boundary rfl (by simp) }
  next hgood =>
    split
    next hlast =>
      obtain ⟨-, -, htrace⟩ := hnothing
      have hm := hmagic (by simp [hlast])
      have hread : (((s.latchLastHeaderByte b).consume 1).loadHeader
          (headerOf (s.latchLastHeaderByte b).hidden.hbuf)).HeaderRead :=
        ⟨rfl, by simpa [headerOf] using hm, by simp [hpos, hlast]⟩
      exact
        { pixels := hs.pixels.frame ⟨rfl, rfl, rfl, rfl, rfl⟩ (absurd htrace) hidle
          engine := .of_afterHeader hbyte hnone rfl hread (by simp)
          latches := .of_boundary rfl (by simp) }
    next hmore =>
      exact
        { pixels := hs.pixels.frame ⟨rfl, rfl, rfl, rfl, rfl⟩ (fun _ => rfl) hidle
          engine := .of_before hbyte hnone (.inr hsub) hnothing
          latches := .latchHeaderByte hs.latches hsub b hgood hmore }

/-! ### One edge -/

/-- What a source within the protocol offers a busy block: a byte where one is left, the end of the stream where none is
(R39). -/
structure State.Feeds (s : State) (i : Inputs) : Prop where
  byte : i.inValid = true → s.pos < s.stream.length
  eos : i.inEos = true → s.stream.length ≤ s.pos

/-- A sub-state that reads a byte (R93): the byte, the end, or nothing at all. -/
theorem State.receive_cases {P : State → Prop} {s : State} {i : Inputs} {onByte : Byte → State} {onEos : State}
    (hfeeds : s.Feeds i) (hbyte : s.pos < s.stream.length → P (onByte i.inData))
    (heos : s.stream.length ≤ s.pos → P onEos) (hstall : P s) : P (s.receive i onByte onEos) := by
  unfold State.receive
  split
  next hv => exact hbyte (hfeeds.byte hv)
  next =>
    split
    next he => exact heos (hfeeds.eos he)
    next => exact hstall

theorem State.busy_iff (s : State) : s.busy = true ↔ s.sub = .hdr ∨ s.sub = .op ∨ s.sub.midOperator = true := by
  cases h : s.sub <;> simp [State.busy, State.state, SubState.engine, SubState.midOperator, h]

/-- R103 at the clock, at the tag offset the operator has latched. -/
theorem Linked.raise_atTag {s : State} (hs : Linked s) (hsub : s.sub = .lit ∨ s.sub = .luma2)
    (hend : s.stream.length ≤ s.pos) : Linked (s.raise .unexpectedEndOfStream s.hidden.opPos) := by
  have hafter : s.sub.afterHeader = true := by rcases hsub with h | h <;> rw [h] <;> rfl
  obtain ⟨hidle, -, -⟩ := SubState.afterHeader_ne hafter
  obtain ⟨hq, hqpos⟩ := hs.latches.tagOffset hsub
  exact hs.raise_unexpectedEnd hidle hend (.inr ⟨hs.engine.after hafter, hq, hqpos.le⟩)

theorem Linked.perDecodeReset_if {s : State} (hs : Linked s) (c : Bool) :
    Linked (if c then s.perDecodeReset else s) := by
  split
  · exact .of_perDecodeReset hs.pixels.outWf
  · exact hs

theorem Linked.transition {s : State} {i : Inputs} (hs : Linked s) (hfeeds : s.busy = true → s.Feeds i) :
    Linked (s.transition i) := by
  rw [State.busy_iff] at hfeeds
  unfold State.transition
  split
  next => exact .of_powerOnReset hs.pixels.outWf
  next =>
    split
    next => exact hs.perDecodeReset_if i.start
    next => exact hs.perDecodeReset_if i.start
    next => exact hs.perDecodeReset_if i.start
    next hsub =>
      refine State.receive_cases (hfeeds (by simp [hsub])) (fun hbyte => hs.hdrByte hsub hbyte _) (fun hend => ?_) hs
      exact hs.raise_unexpectedEnd (by simp [hsub]) hend (.inl ⟨hs.engine.before (.inr hsub), rfl⟩)
    next hsub =>
      have hafter : s.sub.afterHeader = true := by rw [hsub]; rfl
      obtain ⟨-, -, hpos⟩ := hs.engine.after hafter
      refine State.receive_cases (hfeeds (by simp [hsub])) (fun hbyte => ?_) (hs.finalise hsub) hs
      exact hs.of_takesByte hafter hbyte (s.takesByte_opByte _) (.opByte hpos _)
    next hsub =>
      refine State.receive_cases (hfeeds (by simp [hsub, SubState.midOperator])) (fun hbyte => ?_)
        (hs.raise_atTag (.inl hsub)) hs
      exact hs.of_takesByte (by rw [hsub]; rfl) hbyte (s.takesByte_litByte _ hsub) (hs.latches.litByte hsub _)
    next hsub =>
      refine State.receive_cases (hfeeds (by simp [hsub, SubState.midOperator])) (fun hbyte => ?_)
        (hs.raise_atTag (.inr hsub)) hs
      exact hs.of_takesByte (by rw [hsub]; rfl) hbyte (s.takesByte_lumaSecond _) (.lumaSecond s _)
    next hsub =>
      split
      · exact hs
      · exact hs.emitPend hsub

/-! ### An item carried to its end -/

theorem State.readyInputs_rst (s : State) : s.readyInputs.rst = false := by
  unfold State.readyInputs
  split <;> rfl

theorem State.readyInputs_start (s : State) : s.readyInputs.start = false := by
  unfold State.readyInputs
  split <;> rfl

theorem State.feeds_readyInputs (s : State) : s.Feeds s.readyInputs := by
  unfold State.readyInputs
  split
  next h => exact ⟨by simp, fun _ => s.unread_eq_nil_iff.1 h⟩
  next h =>
    refine ⟨fun _ => Nat.lt_of_not_le fun hle => ?_, by simp⟩
    rw [s.unread_eq_nil_iff.2 hle] at h
    cases h

/-- What every edge without a stall keeps, the item carried to its end keeps. -/
theorem State.driveToBoundary_induction {P : State → Prop} (hdrive : ∀ s, P s → P s.drive) {s : State} (hs : P s)
    (n : Nat) : P (s.driveToBoundary n) := by
  induction n generalizing s with
  | zero => exact hs
  | succ n ih =>
    rw [State.driveToBoundary]
    split
    · exact hs
    · exact ih (hdrive s hs)

theorem Linked.finish {s : State} (hs : Linked s) : Linked s.finish :=
  State.driveToBoundary_induction (fun s h => h.transition fun _ => s.feeds_readyInputs) hs _

end Sys2Proof.Machine
end

section
/-! PROOF. Every step and every clock edge keeps the invariant (R27). -/

namespace Sys2Proof.Machine

theorem Inv.advance {s t : State} (hs : Inv s) (h : advance s = .next t) : Inv t := by
  obtain ⟨hlinked, -, -⟩ := (inv_iff_linked s).1 hs
  rcases advance_cases h with ⟨-, rfl⟩ | ⟨hc, ⟨hsub, hcnt, heff⟩ | ⟨hsub, heff⟩ | ⟨-, rfl⟩⟩
  · exact hs
  · obtain ⟨hpos, -, -⟩ := hlinked.latches.headerLatch hsub
    have hzero : s.pos = 0 := by rw [hpos, hcnt]; rfl
    exact (heff.linked hlinked hsub hzero).inv_of_commit hc
  · exact (heff.linked hlinked hsub).inv_of_commit hc
  · exact hlinked.finish.inv_of_commit hc

theorem Inv.command {c : Command} {s t : State} (hs : Inv s) (h : command c s = .next t) : Inv t := by
  cases c with
  | quiet => exact hs.advance h
  | start S =>
    simp only [Machine.command] at h
    split at h
    · exact hs.advance h
    · cases h
      exact (Linked.of_perDecodeReset (s := s.present S) hs.outWf).inv_of_commit rfl
  | rst =>
    cases h
    exact (Linked.of_powerOnReset hs.outWf).inv_of_commit rfl

/-- Settles O42: the step is the item's effect, a reset, or nothing, and each keeps every part of the invariant. -/
theorem stepKeepsInvariant : Obligations.StepKeepsInvariant := by
  unfold Obligations.StepKeepsInvariant
  intro s t hs h
  unfold step stepOnce at h
  split at h
  · exact hs.advance h
  · exact (hs.queue _).command h

/-! ### The clock -/

/-- An obeying source feeds the block while it is busy (R39). -/
theorem Bench.feeds_of_obeys {b : Bench} {i : Inputs} (h : b.obeys i = true) (hbusy : b.machine.busy = true) :
    b.machine.Feeds i := by
  simp only [Bench.obeys, hbusy, Bool.not_true, Bool.false_or, Bool.and_eq_true, Bool.or_eq_true, Bool.not_eq_true',
    beq_iff_eq, List.isEmpty_iff] at h
  obtain ⟨⟨⟨⟨-, hdata⟩, heos⟩, -⟩, -⟩ := h
  constructor
  · intro hv
    refine Nat.lt_of_not_le fun hle => ?_
    rw [b.machine.unread_eq_nil_iff.2 hle] at hdata
    simp [hv] at hdata
  · intro he
    exact b.machine.unread_eq_nil_iff.1 (by simpa [he] using heos)

/-- The edge of a bench that answers: one committed transition, of the machine with its new stream where a `start` is
taken. -/
theorem clock_cases {S : List Byte} {i : Inputs} {b b' : Bench} (h : clock S i b = .next b') :
    b.obeys i = true ∧
      (if b.machine.takesStart i && !i.rst then b.machine.present S else b.machine).transition i = b'.machine ∧
      b'.machine.commit = .next b'.machine := by
  unfold clock at h
  split at h
  next hobeys =>
    dsimp only at h
    split at h
    next t ht =>
      cases h
      obtain ⟨heq, hc⟩ := State.commit_idem ht
      exact ⟨hobeys, heq, hc⟩
    next => cases h
    next => cases h
  next => cases h

/-- A `start` taken without `rst` is the per-decode reset (R93). -/
theorem State.transition_of_takesStart {s : State} {i : Inputs} (h : s.takesStart i = true) (hrst : i.rst = false) :
    s.transition i = s.perDecodeReset := by
  obtain ⟨hstart, hbusy⟩ : i.start = true ∧ s.busy = false := by simpa [State.takesStart] using h
  unfold State.transition
  cases hsub : s.sub <;> simp_all [State.busy, State.state, SubState.engine]

/-- Settles O43: an edge is one transition of the block, and an obeying source feeds it as the invariant needs. -/
theorem clockKeepsInvariant : Obligations.ClockKeepsInvariant := by
  unfold Obligations.ClockKeepsInvariant
  intro S i b b' hs h
  obtain ⟨hlinked, -, -⟩ := (inv_iff_linked b.machine).1 hs
  obtain ⟨hobeys, heq, hc⟩ := clock_cases h
  refine Linked.inv_of_commit ?_ hc
  rw [← heq]
  split
  next hstart =>
    obtain ⟨htake, hrst⟩ : b.machine.takesStart i = true ∧ i.rst = false := by simpa using hstart
    rw [State.transition_of_takesStart (s := b.machine.present S) htake hrst]
    exact .of_perDecodeReset hlinked.pixels.outWf
  next => exact hlinked.transition (Bench.feeds_of_obeys hobeys)

/-! ### Reset -/

/-- Settles O41: the state after reset has emitted nothing and is in no item. -/
theorem invariantHoldsAtReset : Obligations.InvariantHoldsAtReset := by
  have hlinked : Linked State.reset :=
    { pixels := .of_reset reset_out_wf rfl rfl (absurd rfl) (absurd rfl)
      engine := .of_before (Nat.zero_le _) rfl (.inl rfl) ⟨rfl, rfl, rfl⟩
      latches := .of_boundary rfl (by decide) }
  exact hlinked.inv_of_commit rfl

end Sys2Proof.Machine
end

section
/-! PROOF. What stays the same outside HEADER, the facts of R27 read from the invariant, and the flags. -/

namespace Sys2Proof.Machine

/-! ### The header registers and the stream -/

theorem SameSetting.refl (s : State) : SameSetting s s := ⟨rfl, rfl, rfl, rfl, rfl⟩

theorem SameSetting.trans {s t u : State} (h : SameSetting s t) (h' : SameSetting t u) : SameSetting s u :=
  ⟨h'.hdr.trans h.hdr, h'.hdrValid.trans h.hdrValid, h'.stream.trans h.stream, h'.commands.trans h.commands,
    h'.draws.trans h.draws⟩

theorem OperatorEffect.sameSetting {s t : State} (h : OperatorEffect s t) : SameSetting s t := by
  cases h with
  | ended => exact ⟨rfl, rfl, rfl, rfl, rfl⟩
  | emitted l len n p => constructor <;> simp [State.latch]
  | cutShort => exact ⟨rfl, rfl, rfl, rfl, rfl⟩

/-- The frame of an edge outside HEADER: the setting, and HEADER is not entered. -/
structure StaysOutOfHeader (s t : State) : Prop where
  setting : SameSetting s t
  sub : t.sub ≠ .hdr

theorem State.TakesByte.staysOutOfHeader {s t : State} (h : s.TakesByte t) : StaysOutOfHeader s t := by
  obtain ⟨l, x, hx⟩ := h
  obtain ⟨-, hne, -⟩ := SubState.midOperator_spec hx
  exact ⟨⟨rfl, rfl, rfl, rfl, rfl⟩, hne⟩

theorem State.raise_staysOutOfHeader (s : State) (e : ErrCode) (q : Nat) : StaysOutOfHeader s (s.raise e q) :=
  ⟨⟨rfl, rfl, rfl, rfl, rfl⟩, by simp⟩

theorem State.emitPend_staysOutOfHeader {s : State} (hsub : s.sub ≠ .hdr) : StaysOutOfHeader s s.emitPend := by
  unfold State.emitPend
  split
  · exact ⟨⟨rfl, rfl, rfl, rfl, rfl⟩, by simp⟩
  · exact ⟨⟨rfl, rfl, rfl, rfl, rfl⟩, hsub⟩

/-- Outside HEADER an edge without a stall writes no header register. -/
theorem State.drive_staysOutOfHeader {s : State} (hsub : s.sub ≠ .hdr) : StaysOutOfHeader s s.drive := by
  have hstall : StaysOutOfHeader s s := ⟨.refl s, hsub⟩
  have hfeeds := s.feeds_readyInputs
  unfold State.drive State.transition
  rw [s.readyInputs_rst, s.readyInputs_start]
  simp only [Bool.false_eq_true, if_false]
  split
  next => exact hstall
  next => exact hstall
  next => exact hstall
  next h => exact absurd h hsub
  next =>
    exact State.receive_cases hfeeds (fun _ => (s.takesByte_opByte _).staysOutOfHeader)
      (fun _ => ⟨⟨rfl, rfl, rfl, rfl, rfl⟩, by simp [State.finalise, Config.strictPixelCount]⟩) hstall
  next h =>
    exact State.receive_cases hfeeds (fun _ => (s.takesByte_litByte _ h).staysOutOfHeader)
      (fun _ => s.raise_staysOutOfHeader _ _) hstall
  next =>
    exact State.receive_cases hfeeds (fun _ => (s.takesByte_lumaSecond _).staysOutOfHeader)
      (fun _ => s.raise_staysOutOfHeader _ _) hstall
  next =>
    split
    · exact hstall
    · exact State.emitPend_staysOutOfHeader hsub

theorem State.finish_sameSetting {s : State} (hsub : s.sub ≠ .hdr) : SameSetting s s.finish := by
  have h : StaysOutOfHeader s s.finish := by
    refine State.driveToBoundary_induction (P := StaysOutOfHeader s) (fun u hu => ?_) ⟨.refl s, hsub⟩ _
    obtain ⟨hset, hne⟩ := State.drive_staysOutOfHeader hu.sub
    exact ⟨hu.setting.trans hset, hne⟩
  exact h.setting

theorem advance_sameSetting {s t : State} (hsub : s.sub ≠ .hdr) (h : advance s = .next t) : SameSetting s t := by
  rcases advance_cases h with ⟨-, rfl⟩ | ⟨-, ⟨hhdr, -⟩ | ⟨-, heff⟩ | ⟨-, rfl⟩⟩
  · exact .refl _
  · exact absurd hhdr hsub
  · exact heff.sameSetting
  · exact State.finish_sameSetting hsub

/-- Settles O37: a step outside HEADER keeps the whole setting of the decode. -/
theorem headerRegistersAreWrittenOnce : Obligations.HeaderRegistersAreWrittenOnce := by
  unfold Obligations.HeaderRegistersAreWrittenOnce
  intro s t hsub hquiet h
  rw [step, stepOnce, hquiet] at h
  obtain ⟨hhdr, hvalid, hstream, -, -⟩ := advance_sameSetting hsub h
  exact ⟨hhdr, hvalid, hstream⟩

/-! ### The facts of R27 -/

theorem Inv.outWrites_eq {s : State} (h : Inv s) :
    s.outWrites = (s.trace.reverse.filter fun e => decide (e.index < s.npix)).map fun e => (e.index, e.pixel) := by
  rw [State.outWrites]
  congr 1
  exact List.filter_congr fun e he => h.numbered.written_eq e (List.mem_reverse.1 he)

/-- The indexes written are some of those emitted, which count up from 0. -/
theorem Inv.outWrites_ascend {s : State} (h : Inv s) : (s.outWrites.map Prod.fst).Pairwise (· < ·) := by
  have hsub : (s.outWrites.map Prod.fst).Sublist (s.trace.reverse.map Emission.index) := by
    rw [State.outWrites, List.map_map]
    exact List.filter_sublist.map _
  rw [h.numbered.indexes_eq_range] at hsub
  exact List.pairwise_lt_range.sublist hsub

theorem Inv.of_cursor_zero {s : State} (h : Inv s) (hidle : s.sub ≠ .idle) (hcur : s.cursor = 0) :
    s.prev = Config.prevInit ∧ ∀ k : Fin 64, s.cache.get k = Config.cacheInit := by
  have hnil : s.trace = [] := List.length_eq_zero_iff.1 (h.traceLength.trans hcur)
  refine ⟨?_, fun k => ?_⟩
  · rw [h.prevOfTrace hidle, hnil]; rfl
  · rw [h.cacheOfTrace hidle, hnil]; rfl

theorem Inv.cache_slotHash_prev {s : State} (h : Inv s) (hidle : s.sub ≠ .idle) (hcur : 0 < s.cursor) :
    s.cache.get (slotHash s.prev) = s.prev := by
  rw [h.cacheOfTrace hidle, h.prevOfTrace hidle]
  have hlen := h.traceLength
  cases htrace : s.trace with
  | nil => rw [htrace, List.length_nil] at hlen; omega
  | cons e rest => simp [lastPixel, lastWithHash_cons]

/-- Settles O45, from the parts of the invariant about the header, the record of emissions and OUT. -/
theorem invariantGivesTheReachableFacts : Obligations.InvariantGivesTheReachableFacts := by
  unfold Obligations.InvariantGivesTheReachableFacts
  intro s h hstate
  have hafter : s.sub.afterHeader = true := by
    cases hsub : s.sub <;> simp_all [State.state, SubState.engine, SubState.afterHeader]
  obtain ⟨hidle, -, -⟩ := SubState.afterHeader_ne hafter
  obtain ⟨hvalid, hmagic, hpos⟩ := h.after hafter
  have hslot (k : Fin 64) := h.cacheOfTrace hidle k
  refine ⟨⟨hvalid, hmagic⟩, ⟨hpos, h.posInStream⟩, h.of_cursor_zero hidle, h.cache_slotHash_prev hidle,
    fun k => ⟨hslot k, ?_⟩, h.traceLength.symm, h.outWrites_eq, h.outWrites_ascend⟩
  rw [hslot k]
  exact lastWithHash_eq_init_or_hash k s.trace

/-! ### The size of the image, the flags, the reset values -/

/-- Settles O10: each register is below `2^32`. -/
theorem imageSizeFitsSixtyFourBits : Obligations.ImageSizeFitsSixtyFourBits := by
  unfold Obligations.ImageSizeFitsSixtyFourBits
  intro s
  have hbound : s.npix ≤ (2 ^ 32 - 1) ^ 2 := by
    rw [State.npix, Nat.pow_two]
    exact Nat.mul_le_mul (Nat.le_pred_of_lt s.hdr.width.isLt) (Nat.le_pred_of_lt s.hdr.height.isLt)
  exact ⟨rfl, hbound, hbound.trans_lt (by decide)⟩

theorem State.busy_iff_state (s : State) : s.busy = true ↔ s.state = .header ∨ s.state = .awaitOpcode := by
  simp [State.busy]

theorem State.done_iff_state (s : State) : s.done = true ↔ s.state = .done := by simp [State.done]

theorem State.error_iff_state (s : State) : s.error = true ↔ s.state = .error := by simp [State.error]

/-- Settles O40: each flag compares the engine state, and the five engine states differ. -/
theorem statusFlagsPartitionTheStates : Obligations.StatusFlagsPartitionTheStates := by
  unfold Obligations.StatusFlagsPartitionTheStates
  intro s
  refine ⟨s.done_iff_state, s.error_iff_state, s.busy_iff_state, by simp [State.short, State.inside_iff], ?_, ?_⟩
  · rw [State.busy_iff_state]
    rintro (h | h) <;> simp [State.done, State.error, h]
  · cases h : s.state <;> simp [State.busy, State.done, State.error, h]

/-- Settles O36, by the definition of the reset state. -/
theorem resetHasTheSpecsValues : Obligations.ResetHasTheSpecsValues := by
  unfold Obligations.ResetHasTheSpecsValues
  exact ⟨rfl, rfl, rfl, rfl, rfl, rfl, rfl⟩

end Sys2Proof.Machine
end

section
/-! PROOF. The OUT writes of a decode and the image they make (R31, R33). -/

namespace Sys2Proof.Machine

/-! ### The writes -/

/-- Of the indexes emitted, 0 up to the cursor, those inside the image are written. -/
theorem Inv.outWrites_indexes {s : State} (h : Inv s) :
    s.outWrites.map Prod.fst = List.range (min s.cursor s.npix) := by
  have hrange : s.trace.reverse.map Emission.index = List.range s.cursor := by
    rw [h.numbered.indexes_eq_range, h.traceLength]
  calc s.outWrites.map Prod.fst
      = (s.trace.reverse.filter fun e => decide (e.index < s.npix)).map Emission.index := by
        rw [h.outWrites_eq, List.map_map]; rfl
    _ = (List.range s.cursor).filter fun i => decide (i < s.npix) := by rw [← hrange, List.filter_map]; rfl
    _ = List.range (min s.cursor s.npix) := by
        rw [← List.Ico.zero_bot, List.Ico.filter_lt, List.Ico.zero_bot]

/-- Settles O46: the record of emissions counts up from 0 without a gap. -/
theorem outWritesAscendWithoutGaps : Obligations.OutWritesAscendWithoutGaps := by
  unfold Obligations.OutWritesAscendWithoutGaps
  exact fun _ h => h.outWrites_indexes

/-! ### The image -/

theorem Inv.readPixel_of_mem_outWrites {s : State} (h : Inv s) {i : Nat} {p : Pixel} (hmem : (i, p) ∈ s.outWrites) :
    s.out.readPixel i = some p := by
  obtain ⟨e, he, heq⟩ := List.mem_map.1 hmem
  obtain ⟨htrace, hwritten⟩ := List.mem_filter.1 he
  cases heq
  exact h.outOfTrace e (List.mem_reverse.1 htrace) hwritten

theorem Inv.exists_mem_outWrites {s : State} (h : Inv s) {i : Nat} (hcur : i < s.cursor) (hin : i < s.npix) :
    ∃ p, (i, p) ∈ s.outWrites := by
  have hmem : i ∈ s.outWrites.map Prod.fst := by
    rw [h.outWrites_indexes, List.mem_range]
    exact lt_min hcur hin
  obtain ⟨⟨_, p⟩, hp, rfl⟩ := List.mem_map.1 hmem
  exact ⟨p, hp⟩

theorem State.readOut_of_readPixel {s : State} {i : Nat} {p : Pixel} (hvalid : s.hdrValid = true) (hcur : i < s.cursor)
    (hin : i < s.npix) (hread : s.out.readPixel i = some p) : s.readOut i = .next p := by
  simp [State.readOut, hvalid, hcur, hin, hread]

theorem State.readOut_of_cursor_le {s : State} {i : Nat} (hvalid : s.hdrValid = true) (hcur : s.cursor ≤ i)
    (hin : i < s.npix) : s.readOut i = .fault (.outEntryUnwritten i) := by
  simp [State.readOut, hvalid, hin, Nat.not_lt.2 hcur]

theorem State.readOut_of_npix_le {s : State} {i : Nat} (hvalid : s.hdrValid = true) (hout : s.npix ≤ i) :
    s.readOut i = .fault (.outIndexOutside i) := by
  simp [State.readOut, hvalid, Nat.not_lt.2 hout]

/-- Settles O47: an index that has been emitted inside the image is among the writes, and OUT holds what was written. -/
theorem theWrittenPartOfTheImageReads : Obligations.TheWrittenPartOfTheImageReads := by
  unfold Obligations.TheWrittenPartOfTheImageReads
  intro s i h hvalid
  refine ⟨fun hcur hin => ?_, State.readOut_of_cursor_le hvalid, State.readOut_of_npix_le hvalid⟩
  obtain ⟨p, hp⟩ := h.exists_mem_outWrites hcur hin
  exact ⟨p, State.readOut_of_readPixel hvalid hcur hin (h.readPixel_of_mem_outWrites hp), hp⟩

end Sys2Proof.Machine
end

section
/-! PROOF. One edge that no command takes, said once (R93, R95): it waits, takes a byte, sees the end, or emits; the two
handshakes (R39, R40), and the channel protocol (D24). -/

namespace Sys2Proof.Machine

/-! ### What a byte and the end of the stream leave alone -/

/-- `n` bytes are consumed and no pixel is emitted. -/
structure Consumes (n : Nat) (s t : State) : Prop where
  pos : t.pos = s.pos + n
  stream : t.stream = s.stream
  pixels : SamePixels s t

theorem State.TakesByte.consumes {s t : State} (h : s.TakesByte t) : Consumes 1 s t := by
  obtain ⟨l, x, -⟩ := h
  exact ⟨rfl, rfl, rfl, rfl, rfl, rfl, rfl⟩

theorem State.hdrByte_consumes (s : State) (b : Byte) : Consumes 1 s (s.hdrByte b) := by
  unfold State.hdrByte
  dsimp only
  split
  · exact ⟨rfl, rfl, rfl, rfl, rfl, rfl, rfl⟩
  · split <;> exact ⟨rfl, rfl, rfl, rfl, rfl, rfl, rfl⟩

theorem State.raise_consumes (s : State) (e : ErrCode) (q : Nat) : Consumes 0 s (s.raise e q) :=
  ⟨rfl, rfl, rfl, rfl, rfl, rfl, rfl⟩

/-! ### One edge -/

/-- What an edge can do in a cycle in which neither `rst` nor a `start` is taken. -/
inductive EdgeEffect (s : State) (i : Inputs) : State → Prop where
  | waits (hin : s.inReady = true → i.inValid = false ∧ i.inEos = false)
    (hout : s.sub = .emit → s.inside = true ∧ i.outReady = false) : EdgeEffect s i s
  | takes {t : State} (hready : s.inReady = true) (hvalid : i.inValid = true) (h : Consumes 1 s t) : EdgeEffect s i t
  | ends {t : State} (hready : s.inReady = true) (hvalid : i.inValid = false) (h : Consumes 0 s t)
    (hsub : t.sub = .done ∨ t.sub = .err) : EdgeEffect s i t
  | emits (hsub : s.sub = .emit) (hgo : s.inside = true → i.outReady = true) : EdgeEffect s i s.emitPend

/-- R92: the block never reads a byte in the cycle in which it offers a pixel. -/
theorem State.sub_ne_emit_of_inReady {s : State} (h : s.inReady = true) : s.sub ≠ .emit := by
  intro hsub
  simp [State.inReady, hsub, SubState.inReady] at h

theorem EdgeEffect.receive {s : State} {i : Inputs} {onByte : Byte → State} {onEos : State} (hready : s.inReady = true)
    (hbyte : Consumes 1 s (onByte i.inData)) (heos : Consumes 0 s onEos) (hsub : onEos.sub = .done ∨ onEos.sub = .err) :
    EdgeEffect s i (s.receive i onByte onEos) := by
  unfold State.receive
  split
  next hv => exact .takes hready hv hbyte
  next hv =>
    have hv : i.inValid = false := by simpa using hv
    split
    next => exact .ends hready hv heos hsub
    next he => exact .waits (fun _ => ⟨hv, by simpa using he⟩) fun h => absurd h (State.sub_ne_emit_of_inReady hready)

/-- R92: outside the busy states neither channel moves. -/
theorem State.not_ready_of_not_busy {s : State} (h : s.busy = false) : s.inReady = false ∧ s.sub ≠ .emit := by
  rw [Bool.eq_false_iff, Ne, State.busy_iff] at h
  cases hsub : s.sub <;> simp_all [State.inReady, SubState.inReady, SubState.midOperator]

/-- R97: outside the busy states the block waits for a `start`. -/
theorem EdgeEffect.holds {s : State} {i : Inputs} (hbusy : s.busy = false) (hstart : s.takesStart i = false) :
    EdgeEffect s i (if i.start then s.perDecodeReset else s) := by
  obtain ⟨hready, hemit⟩ := State.not_ready_of_not_busy hbusy
  have hs : i.start = false := by simpa [State.takesStart, hbusy] using hstart
  rw [hs]
  exact .waits (fun h => by simp [hready] at h) fun h => absurd h hemit

theorem State.transition_effect {s : State} {i : Inputs} (hrst : i.rst = false) (hstart : s.takesStart i = false) :
    EdgeEffect s i (s.transition i) := by
  unfold State.transition
  rw [hrst]
  simp only [Bool.false_eq_true, if_false]
  split
  next h => exact .holds (by rw [State.busy, State.state, h]; rfl) hstart
  next h => exact .holds (by rw [State.busy, State.state, h]; rfl) hstart
  next h => exact .holds (by rw [State.busy, State.state, h]; rfl) hstart
  next h => exact .receive (by rw [State.inReady, h]; rfl) (s.hdrByte_consumes _) (s.raise_consumes _ _) (.inr rfl)
  next h =>
    exact .receive (by rw [State.inReady, h]; rfl) (s.takesByte_opByte _).consumes ⟨rfl, rfl, rfl, rfl, rfl, rfl, rfl⟩
      (.inl rfl)
  next h =>
    exact .receive (by rw [State.inReady, h]; rfl) (s.takesByte_litByte _ h).consumes (s.raise_consumes _ _) (.inr rfl)
  next h =>
    exact .receive (by rw [State.inReady, h]; rfl) (s.takesByte_lumaSecond _).consumes (s.raise_consumes _ _) (.inr rfl)
  next h =>
    split
    next hstall =>
      exact .waits (fun hr => absurd h (State.sub_ne_emit_of_inReady hr)) fun _ => by simpa using hstall
    next hgo => exact .emits h fun hin => by simpa [hin] using hgo

/-! ### The handshakes -/

@[simp] theorem State.emitPend_pos (s : State) : s.emitPend.pos = s.pos := by unfold State.emitPend; split <;> rfl
@[simp] theorem State.emitPend_stream (s : State) : s.emitPend.stream = s.stream := by
  unfold State.emitPend; split <;> rfl
@[simp] theorem State.emitPend_cursor (s : State) : s.emitPend.cursor = s.cursor + 1 := by
  unfold State.emitPend; split <;> rfl
@[simp] theorem State.emitPend_out (s : State) :
    s.emitPend.out = bif s.inside then s.out.writePixel s.cursor s.hidden.pend else s.out := by
  unfold State.emitPend; split <;> rfl

theorem State.outValid_iff (s : State) : s.outValid = true ↔ s.sub = .emit ∧ s.cursor < s.npix := by
  simp [State.outValid, State.inside_iff]

theorem State.inReady_of_emit {s : State} (h : s.sub = .emit) : s.inReady = false := by
  rw [State.inReady, h]; rfl

theorem State.outValid_of_emit {s : State} (h : s.sub = .emit) : s.outValid = s.inside := by
  simp [State.outValid, h]

theorem State.outputs_of_emit {s : State} (h : s.sub = .emit) :
    s.outputs.outPixel = some (pack s.hidden.pend) ∧ s.outputs.outIndex = some (BitVec.ofNat 64 s.cursor) := by
  simp [State.outputs, portWhen, h]

theorem State.outValid_of_ne_emit {s : State} (h : s.sub ≠ .emit) : s.outValid = false := by
  simp [State.outValid, h]

/-- R39: a byte is consumed exactly in the input handshake. -/
theorem EdgeEffect.pos_eq {s t : State} {i : Inputs} (h : EdgeEffect s i t) :
    t.pos = s.pos + (if s.inReady && i.inValid then 1 else 0) := by
  cases h with
  | waits hin =>
    cases hready : s.inReady with
    | false => rfl
    | true => rw [(hin hready).1]; rfl
  | takes hready hvalid h => rw [h.pos, hready, hvalid]; rfl
  | ends hready hvalid h => rw [h.pos, hready, hvalid]; rfl
  | emits hsub => rw [State.emitPend_pos, State.inReady_of_emit hsub]; rfl

/-- R40: OUT is written exactly in the output handshake. -/
theorem EdgeEffect.out_eq {s t : State} {i : Inputs} (h : EdgeEffect s i t) :
    t.out = if s.outValid && i.outReady then s.out.writePixel s.cursor s.hidden.pend else s.out := by
  cases h with
  | waits _ hout =>
    by_cases hsub : s.sub = .emit
    · simp [(hout hsub).2]
    · simp [State.outValid_of_ne_emit hsub]
  | takes hready _ h => simp [State.outValid_of_ne_emit (State.sub_ne_emit_of_inReady hready), h.pixels.out]
  | ends hready _ h => simp [State.outValid_of_ne_emit (State.sub_ne_emit_of_inReady hready), h.pixels.out]
  | emits hsub hgo =>
    rw [State.emitPend_out, State.outValid_of_emit hsub]
    cases hin : s.inside with
    | false => rfl
    | true => rw [hgo hin]; rfl

/-- Settles O53: an edge waits, takes a byte, sees the end, or emits, and each moves its own channel only. -/
theorem handshakesMoveBytesAndPixels : Obligations.HandshakesMoveBytesAndPixels := by
  unfold Obligations.HandshakesMoveBytesAndPixels
  intro i s hrst hstart
  have heff := State.transition_effect hrst hstart
  refine ⟨heff.pos_eq, heff.out_eq, fun hvalid => ?_⟩
  obtain ⟨hsub, hin⟩ := s.outValid_iff.1 hvalid
  exact ⟨State.inReady_of_emit hsub, hin, State.outputs_of_emit hsub⟩

/-! ### The channel protocol -/

/-- What an obeying environment drives, one clause for each breach (R39, D24). -/
structure Bench.Obeys (b : Bench) (i : Inputs) : Prop where
  notBoth : ¬(i.inValid = true ∧ i.inEos = true)
  nextByte : b.machine.busy = true → i.inValid = true → b.machine.unread.head? = some i.inData
  eosAtEnd : b.machine.busy = true → i.inEos = true → b.machine.unread = []
  eosStays : i.rst = false → b.machine.takesStart i = false → b.channel.eosHeld = true → i.inEos = true
  dataStays : i.rst = false → b.machine.takesStart i = false → i.inValid = true →
    ∀ d, b.channel.offered = some d → d = i.inData

theorem Bench.Obeys.of_obeys {b : Bench} {i : Inputs} (h : b.obeys i = true) : b.Obeys i := by
  simp only [Bench.obeys, Bool.and_eq_true, Bool.or_eq_true, Bool.not_eq_true', beq_iff_eq, List.isEmpty_iff,
    Bool.and_eq_false_iff] at h
  obtain ⟨⟨⟨⟨hboth, hdata⟩, heos⟩, hheld⟩, hoffered⟩ := h
  refine ⟨?_, ?_, ?_, ?_, ?_⟩
  · rintro ⟨hv, he⟩; simp [hv, he] at hboth
  · intro hbusy hv; simpa [hbusy, hv] using hdata
  · intro hbusy he; simpa [hbusy, he] using heos
  · intro hrst hstart hprev; simpa [hrst, hstart, hprev] using hheld
  · intro hrst hstart hv d hd
    simpa [hrst, hstart, hv, hd] using hoffered

theorem clock_of_not_obeys {S : List Byte} {i : Inputs} {b : Bench} (h : ¬b.Obeys i) :
    clock S i b = .refused .channelProtocol := by
  unfold clock
  rw [if_neg fun hobeys => h (Bench.Obeys.of_obeys hobeys)]

theorem clock_channel {S : List Byte} {i : Inputs} {b b' : Bench} (h : clock S i b = .next b') :
    b'.channel = Channel.next b.machine i := by
  unfold clock at h
  split at h
  next =>
    dsimp only at h
    split at h <;> cases h
    rfl
  next => cases h

theorem Channel.next_of_no_command {s : State} {i : Inputs} (hrst : i.rst = false) (hstart : s.takesStart i = false) :
    Channel.next s i = ⟨i.inEos, if i.inValid = true ∧ s.inReady = false then some i.inData else none⟩ := by
  simp [Channel.next, hrst, hstart]

/-- Settles O54: each breach breaks one clause of the protocol, and an edge that answers remembers what was driven. -/
theorem protocolBreachesAreRefused : Obligations.ProtocolBreachesAreRefused := by
  unfold Obligations.ProtocolBreachesAreRefused
  refine ⟨fun S i b hbreach => clock_of_not_obeys fun hobeys => ?_, fun S i b b' h hrst hstart => ?_⟩
  · rcases hbreach with hboth | ⟨hbusy, hv, hne⟩ | ⟨hbusy, he, hne⟩ | ⟨hrst, hstart, hheld, he⟩ |
      ⟨hrst, hstart, hv, d, hd, hne⟩
    · exact hobeys.notBoth hboth
    · exact hne (hobeys.nextByte hbusy hv)
    · exact hne (hobeys.eosAtEnd hbusy he)
    · simp [hobeys.eosStays hrst hstart hheld] at he
    · exact hne (hobeys.dataStays hrst hstart hv d hd)
  · rw [clock_channel h, Channel.next_of_no_command hrst hstart]
    exact ⟨rfl, rfl⟩

end Sys2Proof.Machine
end

section
/-! PROOF. What a step does to the stream, the counters and OUT (R29, R31, R99): each effect of an item, an item carried
to its end, and the step with its command. -/

namespace Sys2Proof.Machine

/-! ### The step and its command -/

/-- R91, R116: a step is the machine's own, unless `start` is accepted or `rst` is asserted. -/
theorem step_cases {s t : State} (h : step s = .next t) :
    (advance (s.queue s.commands.tail) = .next t ∧ s.commands.head? ≠ some .rst) ∨
      (∃ S, s.commands.head? = some (.start S) ∧ s.busy = false ∧
        t = ((s.queue s.commands.tail).present S).perDecodeReset) ∨
      (s.commands.head? = some .rst ∧ t = (s.queue s.commands.tail).powerOnReset) := by
  unfold step stepOnce at h
  split at h
  next hnil =>
    have hself : s.queue s.commands.tail = s := by rw [hnil, List.tail_nil, ← hnil]; rfl
    exact .inl ⟨by rw [hself]; exact h, by simp [hnil]⟩
  next c rest hcons =>
    rw [hcons, List.head?_cons, List.tail_cons]
    cases c with
    | quiet => exact .inl ⟨h, by simp⟩
    | start S =>
      simp only [command] at h
      split at h
      next => exact .inl ⟨h, by simp⟩
      next hbusy => cases h; exact .inr (.inl ⟨S, rfl, Bool.eq_false_iff.2 hbusy, rfl⟩)
    | rst => cases h; exact .inr (.inr ⟨rfl, rfl⟩)

/-! ### An item carried to its end -/

/-- What every edge in the middle of an item keeps, the item carried to its end keeps. -/
theorem State.driveToBoundary_midItem_induction {P : State → Prop}
    (hdrive : ∀ u, u.atBoundary = false → P u → P u.drive) {s : State} (hs : P s) (n : Nat) :
    P (s.driveToBoundary n) := by
  induction n generalizing s with
  | zero => exact hs
  | succ n ih =>
    rw [State.driveToBoundary]
    split
    next => exact hs
    next hb => exact ih (hdrive s (by simpa using hb) hs)

theorem State.edgesLeft_pos {s : State} (h : s.atBoundary = false) : 0 < s.edgesLeft := by
  rw [State.atBoundary] at h
  rw [State.edgesLeft]
  cases hsub : s.sub with
  | hdr =>
    have hcnt : s.hidden.cnt ≠ 0#4 := by simpa [hsub] using h
    have hlt := s.hidden.cnt.isLt
    simp only [hcnt, if_false]
    split <;> omega
  | lit => exact Nat.succ_pos _
  | luma2 => exact Nat.succ_pos _
  | emit => exact Nat.succ_pos _
  | idle => simp [hsub] at h
  | op => simp [hsub] at h
  | done => simp [hsub] at h
  | err => simp [hsub] at h

/-- An item in progress takes an edge at least. -/
theorem State.finish_of_midItem {s : State} (h : s.atBoundary = false) :
    ∃ n, s.finish = s.drive.driveToBoundary n := by
  obtain ⟨n, hn⟩ := Nat.exists_eq_succ_of_ne_zero (State.edgesLeft_pos h).ne'
  refine ⟨n, ?_⟩
  rw [State.finish, hn, State.driveToBoundary, h]
  rfl

theorem State.drive_effect (s : State) : EdgeEffect s s.readyInputs s.drive :=
  State.transition_effect s.readyInputs_rst (by simp [State.takesStart, s.readyInputs_start])

theorem State.readyInputs_outReady (s : State) : s.readyInputs.outReady = true := by
  unfold State.readyInputs
  split <;> rfl

theorem State.readyInputs_valid_or_eos (s : State) : s.readyInputs.inValid = true ∨ s.readyInputs.inEos = true := by
  unfold State.readyInputs
  split
  · exact .inr rfl
  · exact .inl rfl

/-! ### The stream and the two counters -/

/-- The same stream, with neither counter moved back and `pos` not past the end. -/
structure Advances (s t : State) : Prop where
  pos : s.pos ≤ t.pos
  inStream : t.pos ≤ t.stream.length
  stream : t.stream = s.stream
  cursor : s.cursor ≤ t.cursor

theorem Advances.refl {s : State} (h : s.pos ≤ s.stream.length) : Advances s s := ⟨le_rfl, h, rfl, le_rfl⟩

theorem Advances.trans {s t u : State} (h : Advances s t) (h' : Advances t u) : Advances s u :=
  ⟨h.pos.trans h'.pos, h'.inStream, h'.stream.trans h.stream, h.cursor.trans h'.cursor⟩

/-- R99: a byte is consumed, or the decode has ended. -/
def ConsumesOrEnds (s t : State) : Prop := s.pos < t.pos ∨ t.sub = .done ∨ t.sub = .err

theorem Consumes.advances {n : Nat} {s t : State} (h : Consumes n s t) (hfit : s.pos + n ≤ s.stream.length) :
    Advances s t where
  pos := by rw [h.pos]; exact Nat.le_add_right _ _
  inStream := by rw [h.pos, h.stream]; exact hfit
  stream := h.stream
  cursor := h.pixels.cursor.ge

theorem EdgeEffect.advances {s t : State} {i : Inputs} (h : EdgeEffect s i t) (hlen : s.pos ≤ s.stream.length)
    (hfeeds : s.Feeds i) : Advances s t := by
  cases h with
  | waits => exact .refl hlen
  | takes _ hvalid h => exact h.advances (hfeeds.byte hvalid)
  | ends _ _ h => exact h.advances hlen
  | emits => exact ⟨by simp, by simpa using hlen, by simp, by simp⟩

theorem State.drive_advances {s : State} (h : s.pos ≤ s.stream.length) : Advances s s.drive :=
  s.drive_effect.advances h s.feeds_readyInputs

theorem State.driveToBoundary_advances {s : State} (h : s.pos ≤ s.stream.length) (n : Nat) :
    Advances s (s.driveToBoundary n) :=
  State.driveToBoundary_induction (P := Advances s) (fun _ hu => hu.trans (State.drive_advances hu.inStream))
    (.refl h) n

/-- A byte is always there to take, or the end to see, where no pixel is waiting. -/
theorem State.drive_consumesOrEnds {s : State} (hready : s.inReady = true) : ConsumesOrEnds s s.drive := by
  have heff := s.drive_effect
  generalize s.drive = t at heff ⊢
  cases heff with
  | waits hin =>
    obtain ⟨hv, he⟩ := hin hready
    rcases s.readyInputs_valid_or_eos with h | h
    · simp [h] at hv
    · simp [h] at he
  | takes _ _ h => exact .inl (by rw [h.pos]; exact Nat.lt_succ_self _)
  | ends _ _ _ hsub => exact .inr hsub
  | emits hsub => exact absurd hsub (State.sub_ne_emit_of_inReady hready)

theorem State.drive_cursor_of_emit {s : State} (hsub : s.sub = .emit) : s.drive.cursor = s.cursor + 1 := by
  have heff := s.drive_effect
  generalize s.drive = t at heff ⊢
  cases heff with
  | waits _ hout =>
    obtain ⟨-, hstalled⟩ := hout hsub
    simp [s.readyInputs_outReady] at hstalled
  | takes hready => exact absurd hsub (State.sub_ne_emit_of_inReady hready)
  | ends hready => exact absurd hsub (State.sub_ne_emit_of_inReady hready)
  | emits => exact s.emitPend_cursor

/-- At a boundary nothing more is driven, so an item in progress that has consumed or ended keeps that. -/
theorem State.finish_consumesOrEnds {s : State} (h : s.pos ≤ s.stream.length) (hb : s.atBoundary = false)
    (hready : s.inReady = true) : ConsumesOrEnds s s.finish := by
  obtain ⟨n, hn⟩ := State.finish_of_midItem hb
  have hfirst : s.drive.pos ≤ s.drive.stream.length ∧ ConsumesOrEnds s s.drive :=
    ⟨(State.drive_advances h).inStream, State.drive_consumesOrEnds hready⟩
  rw [hn]
  refine (State.driveToBoundary_midItem_induction (P := fun u => u.pos ≤ u.stream.length ∧ ConsumesOrEnds s u)
    (fun u hmid hu => ?_) hfirst n).2
  obtain ⟨hlen, hu⟩ := hu
  have hadv := State.drive_advances hlen
  rcases hu with hlt | hdone | herr
  · exact ⟨hadv.inStream, .inl (hlt.trans_le hadv.pos)⟩
  · simp [State.atBoundary, hdone] at hmid
  · simp [State.atBoundary, herr] at hmid

theorem State.finish_cursor_of_emit {s : State} (h : s.pos ≤ s.stream.length) (hsub : s.sub = .emit) :
    s.cursor < s.finish.cursor := by
  obtain ⟨n, hn⟩ := State.finish_of_midItem (s := s) (by rw [State.atBoundary, hsub])
  have hrest := (State.driveToBoundary_advances (State.drive_advances h).inStream n).cursor
  rw [State.drive_cursor_of_emit hsub] at hrest
  rw [hn]
  exact hrest

theorem HeaderEffect.advances {s t : State} (h : HeaderEffect s t) (hlen : s.pos ≤ s.stream.length) :
    Advances s t ∧ ConsumesOrEnds s t := by
  cases h with
  | loaded _ _ _ hfit => exact ⟨⟨Nat.le_add_right _ _, hfit, rfl, le_rfl⟩, .inl (Nat.lt_add_of_pos_right (by decide))⟩
  | ended => exact ⟨⟨hlen, le_rfl, rfl, le_rfl⟩, .inr (.inr rfl)⟩
  | mismatched _ hfit => exact ⟨⟨Nat.le_add_right _ _, hfit, rfl, le_rfl⟩, .inr (.inr rfl)⟩

theorem OperatorEffect.advances {s t : State} (h : OperatorEffect s t) (hlen : s.pos ≤ s.stream.length) :
    Advances s t ∧ ConsumesOrEnds s t := by
  cases h with
  | ended => exact ⟨⟨le_rfl, hlen, rfl, le_rfl⟩, .inr (.inl rfl)⟩
  | emitted l len n p hpos hfit =>
    have hfinal : (((s.latch l).consume len).emitTimes p n).pos = s.pos + len := by simp [State.latch]
    refine ⟨⟨?_, ?_, ?_, ?_⟩, .inl ?_⟩
    · rw [hfinal]; exact Nat.le_add_right _ _
    · simpa [hfinal, State.latch] using hfit
    · simp [State.latch]
    · simp [State.latch]
    · rw [hfinal]; exact Nat.lt_add_of_pos_right hpos
  | cutShort => exact ⟨⟨hlen, le_rfl, rfl, le_rfl⟩, .inr (.inr rfl)⟩

theorem State.inReady_of_busy {s : State} (hbusy : s.busy = true) (hsub : s.sub ≠ .emit) : s.inReady = true := by
  rw [State.busy_iff] at hbusy
  cases h : s.sub <;> simp_all [State.inReady, SubState.inReady, SubState.midOperator]

/-- Settles O38: HEADER, an operator, and an item carried to its end each consume or end; S_EMIT emits. -/
theorem stepsConsumeOrEnd : Obligations.StepsConsumeOrEnd := by
  unfold Obligations.StepsConsumeOrEnd
  intro s t hquiet hlen h
  rw [step, stepOnce, hquiet] at h
  have main : Advances s t ∧ (s.busy = true → s.sub ≠ .emit → ConsumesOrEnds s t) ∧
      (s.sub = .emit → s.cursor < t.cursor) := by
    rcases advance_cases h with ⟨hbusy, rfl⟩ | ⟨-, ⟨hsub, -, heff⟩ | ⟨hsub, heff⟩ | ⟨hb, rfl⟩⟩
    · have hemit := (State.not_ready_of_not_busy hbusy).2
      exact ⟨.refl hlen, by simp [hbusy], fun he => absurd he hemit⟩
    · obtain ⟨hadv, hcons⟩ := heff.advances hlen
      exact ⟨hadv, fun _ _ => hcons, by simp [hsub]⟩
    · obtain ⟨hadv, hcons⟩ := heff.advances hlen
      exact ⟨hadv, fun _ _ => hcons, by simp [hsub]⟩
    · exact ⟨State.driveToBoundary_advances hlen _,
        fun hbusy hne => State.finish_consumesOrEnds hlen hb (State.inReady_of_busy hbusy hne),
        State.finish_cursor_of_emit hlen⟩
  obtain ⟨⟨hpos, hin, hstream, -⟩, hcons, hemit⟩ := main
  exact ⟨hpos, hin, hstream, hcons, fun hsub => ⟨by rw [State.atBoundary, hsub], hemit hsub⟩⟩

/-! ### OUT outside the image -/

/-- OUT reads the same from pixel index `n` on. -/
def SameOutFrom (n : Nat) (s t : State) : Prop := ∀ a, outAddress n 0 ≤ a → t.out.readByte a = s.out.readByte a

theorem SameOutFrom.of_out_eq {n : Nat} {s t : State} (h : t.out = s.out) : SameOutFrom n s t := fun _ _ => by rw [h]

theorem SameOutFrom.trans {n : Nat} {s t u : State} (h : SameOutFrom n s t) (h' : SameOutFrom n t u) :
    SameOutFrom n s u := fun a ha => (h' a ha).trans (h a ha)

/-- The four bytes of a pixel inside the image stand below the first address outside it (R32, D31). -/
theorem SameOutFrom.of_writePixel {n i : Nat} {p : Pixel} {s t : State} (hout : t.out = s.out.writePixel i p)
    (hi : i < n) : SameOutFrom n s t := by
  intro a ha
  rw [hout]
  refine Memory.readByte_writePixel_other _ _ _ _ fun c hc => ?_
  simp only [outAddress] at ha ⊢
  omega

theorem SameOutFrom.emit (s : State) (p : Pixel) : SameOutFrom s.npix s (s.emit p) := by
  cases hin : s.inside with
  | false => exact .of_out_eq (by simp [hin])
  | true => exact .of_writePixel (by rw [State.emit_out, hin]; rfl) (s.inside_iff.1 hin)

theorem SameOutFrom.emitTimes (s : State) (p : Pixel) (n : Nat) : SameOutFrom s.npix s (s.emitTimes p n) := by
  induction n generalizing s with
  | zero => exact .of_out_eq rfl
  | succ n ih => exact (SameOutFrom.emit s p).trans (ih (s.emit p))

theorem EdgeEffect.sameOutFrom {s t : State} {i : Inputs} (h : EdgeEffect s i t) : SameOutFrom s.npix s t := by
  have hout := h.out_eq
  split at hout
  next hgo =>
    obtain ⟨hvalid, -⟩ : s.outValid = true ∧ i.outReady = true := by simpa using hgo
    exact .of_writePixel hout (s.outValid_iff.1 hvalid).2
  next => exact .of_out_eq hout

theorem HeaderEffect.out_eq {s t : State} (h : HeaderEffect s t) : t.out = s.out := by
  cases h <;> rfl

theorem OperatorEffect.sameOutFrom {s t : State} (h : OperatorEffect s t) : SameOutFrom s.npix s t := by
  cases h with
  | ended => exact .of_out_eq rfl
  | emitted l len n p => exact SameOutFrom.emitTimes ((s.latch l).consume len) p n
  | cutShort => exact .of_out_eq rfl

/-- No byte of the header leads into an operator. -/
theorem State.drive_midOperator_of_hdr {s : State} (hsub : s.sub = .hdr) : s.drive.sub.midOperator = false := by
  have hstall : s.sub.midOperator = false := by rw [hsub]; rfl
  rw [State.drive, State.transition, s.readyInputs_rst, hsub]
  refine State.receive_cases (P := fun t => t.sub.midOperator = false) s.feeds_readyInputs (fun _ => ?_) (fun _ => rfl)
    hstall
  unfold State.hdrByte
  dsimp only
  split
  · rfl
  · split
    · rfl
    · exact hstall

theorem State.midOperator_of_midItem {s : State} (hb : s.atBoundary = false) (hsub : s.sub ≠ .hdr) :
    s.sub.midOperator = true := by
  rw [State.atBoundary] at hb
  cases h : s.sub <;> simp_all [SubState.midOperator]

/-- The image may change its size only with the last byte of the header, after which nothing is in progress. -/
theorem State.finish_sameOutFrom (s : State) : SameOutFrom s.npix s s.finish := by
  refine (State.driveToBoundary_midItem_induction
    (P := fun u => SameOutFrom s.npix s u ∧ (u.sub.midOperator = true → u.npix = s.npix)) (fun u hmid hu => ?_)
    ⟨.of_out_eq rfl, fun _ => rfl⟩ s.edgesLeft).1
  obtain ⟨hout, hsize⟩ := hu
  by_cases hsub : u.sub = .hdr
  · have hsame : u.drive.out = u.out := by
      rw [u.drive_effect.out_eq, State.outValid_of_ne_emit (by simp [hsub])]; rfl
    exact ⟨hout.trans (.of_out_eq hsame), by simp [State.drive_midOperator_of_hdr hsub]⟩
  · have hn := hsize (State.midOperator_of_midItem hmid hsub)
    have hhdr := (State.drive_staysOutOfHeader hsub).setting.hdr
    exact ⟨hout.trans (hn ▸ u.drive_effect.sameOutFrom), fun _ => by rw [← hn, State.npix, State.npix, hhdr]⟩

theorem advance_sameOutFrom {s t : State} (h : advance s = .next t) : SameOutFrom s.npix s t := by
  rcases advance_cases h with ⟨-, rfl⟩ | ⟨-, ⟨-, -, heff⟩ | ⟨-, heff⟩ | ⟨-, rfl⟩⟩
  · exact .of_out_eq rfl
  · exact .of_out_eq heff.out_eq
  · exact heff.sameOutFrom
  · exact s.finish_sameOutFrom

/-- Settles O39: the resets write no OUT, and every pixel written is inside the image. -/
theorem outIsTouchedOnlyInsideTheImage : Obligations.OutIsTouchedOnlyInsideTheImage := by
  unfold Obligations.OutIsTouchedOnlyInsideTheImage
  intro s t h
  change SameOutFrom s.npix s t
  rcases step_cases h with ⟨hadv, -⟩ | ⟨S, -, -, rfl⟩ | ⟨-, rfl⟩
  · exact (advance_sameOutFrom hadv : SameOutFrom _ (s.queue _) t)
  · exact .of_out_eq rfl
  · exact .of_out_eq rfl

end Sys2Proof.Machine
end

section
/-! PROOF. The decoder and the encoder are inverse to each other (R46 to R52), operators are rejected only where they are
cut short (R56, R103), and the tag table gives the classifier (R55). -/

namespace Sys2Proof

/-! ### What the decoder answers, one equation for each tag -/

theorem decodeOperator_rgb {b0 : Byte} (h : classify b0 = some .rgb) (r g b : Byte) (rest : List Byte) :
    decodeOperator (b0 :: r :: g :: b :: rest) = .instr (.rgb r g b) rest := by simp only [decodeOperator, h]

theorem decodeOperator_rgba {b0 : Byte} (h : classify b0 = some .rgba) (r g b a : Byte) (rest : List Byte) :
    decodeOperator (b0 :: r :: g :: b :: a :: rest) = .instr (.rgba r g b a) rest := by simp only [decodeOperator, h]

theorem decodeOperator_index {b0 : Byte} (h : classify b0 = some .index) (rest : List Byte) :
    decodeOperator (b0 :: rest) = .instr (.index (b0.extractLsb' 0 6)) rest := by simp only [decodeOperator, h]

theorem decodeOperator_diff {b0 : Byte} (h : classify b0 = some .diff) (rest : List Byte) :
    decodeOperator (b0 :: rest) =
      .instr (.diff (b0.extractLsb' 4 2) (b0.extractLsb' 2 2) (b0.extractLsb' 0 2)) rest := by
  simp only [decodeOperator, h]

theorem decodeOperator_luma {b0 : Byte} (h : classify b0 = some .luma) (b1 : Byte) (rest : List Byte) :
    decodeOperator (b0 :: b1 :: rest) =
      .instr (.luma (b0.extractLsb' 0 6) (b1.extractLsb' 4 4) (b1.extractLsb' 0 4)) rest := by
  simp only [decodeOperator, h]

theorem decodeOperator_run {b0 : Byte} (h : classify b0 = some .run) (rest : List Byte) :
    decodeOperator (b0 :: rest) = .instr (.run (b0.extractLsb' 0 6)) rest := by simp only [decodeOperator, h]

/-! ### From an instruction to its bytes and back -/

theorem classify_rgbTag : classify 0xFE#8 = some .rgb := by decide

theorem classify_rgbaTag : classify 0xFF#8 = some .rgba := by decide

theorem decode_encode (i : Instr) (rest : List Byte) (hwf : i.wellFormed = true) :
    decode i.position (encode i ++ rest) = .instr i rest := by
  cases i with
  | header m w h c cs =>
    have hm : m = Config.magic := of_decide_eq_true hwf
    simp [decode, Instr.position, encode, beBytes, decodeHeader, hm]
  | rgb r g b => exact decodeOperator_rgb classify_rgbTag r g b rest
  | rgba r g b a => exact decodeOperator_rgba classify_rgbaTag r g b a rest
  | index k =>
    obtain ⟨hc, hk⟩ := classify_indexTag k
    exact (decodeOperator_index hc rest).trans (by rw [hk])
  | diff fr fg fb =>
    obtain ⟨hc, hr, hg, hb⟩ := classify_diffTag fr fg fb
    exact (decodeOperator_diff hc rest).trans (by rw [hr, hg, hb])
  | luma fg frg fbg =>
    obtain ⟨hc, hg⟩ := classify_lumaTag fg
    obtain ⟨hrg, hbg⟩ := lumaByte_fields frg fbg
    exact (decodeOperator_luma hc _ rest).trans (by rw [hg, hrg, hbg])
  | run n =>
    have hc := classify_runTag n (of_decide_eq_true hwf)
    exact (decodeOperator_run hc rest).trans (by rw [runTag_field])

/-- Settles O4: one case for each row of the opcode table. -/
theorem decodeInvertsEncode : Obligations.DecodeInvertsEncode := by
  unfold Obligations.DecodeInvertsEncode
  exact decode_encode

/-! ### From bytes to an instruction and back -/

theorem decodeHeader_eq_encode {bs rest : List Byte} {i : Instr} (h : decodeHeader bs = .instr i rest) :
    i.wellFormed = true ∧ bs = encode i ++ rest := by
  unfold decodeHeader at h
  split at h
  next =>
    split at h
    next hmagic =>
      split at h <;> cases h
      exact ⟨decide_eq_true hmagic, by simp [encode]⟩
    next => cases h
  next => cases h

theorem decodeOperator_eq_encode {bs rest : List Byte} {i : Instr} (h : decodeOperator bs = .instr i rest) :
    i.wellFormed = true ∧ bs = encode i ++ rest := by
  cases bs with
  | nil => cases h
  | cons b0 more =>
    simp only [decodeOperator] at h
    split at h
    next hc =>
      split at h <;> cases h
      exact ⟨rfl, by rw [eq_of_classify_rgb b0 hc]; rfl⟩
    next hc =>
      split at h <;> cases h
      exact ⟨rfl, by rw [eq_of_classify_rgba b0 hc]; rfl⟩
    next hc =>
      cases h
      exact ⟨rfl, congrArg (· :: rest) (eq_of_classify_index b0 hc)⟩
    next hc =>
      cases h
      exact ⟨rfl, congrArg (· :: rest) (eq_of_classify_diff b0 hc)⟩
    next hc =>
      split at h <;> cases h
      exact ⟨rfl, congrArg₂ (· :: · :: rest) (eq_of_classify_luma b0 hc) (eq_lumaByte _)⟩
    next hc =>
      cases h
      obtain ⟨htag, hle⟩ := eq_of_classify_run b0 hc
      exact ⟨decide_eq_true hle, congrArg (· :: rest) htag⟩
    next => cases h

/-- R47: the length of an operator is fixed by its row, whatever its fields hold. -/
@[simp] theorem encode_length (i : Instr) : (encode i).length = i.length := by
  cases i <;> rfl

theorem decode_eq_encode {p : Position} {bs rest : List Byte} {i : Instr} (h : decode p bs = .instr i rest) :
    i.wellFormed = true ∧ i.position = p ∧ bs = encode i ++ rest := by
  cases p with
  | header =>
    obtain ⟨m, w, ht, c, cs, rfl⟩ := Machine.decodeHeader_eq_instr h
    obtain ⟨hwf, hbs⟩ := decodeHeader_eq_encode h
    exact ⟨hwf, rfl, hbs⟩
  | operator =>
    obtain ⟨hwf, hbs⟩ := decodeOperator_eq_encode h
    exact ⟨hwf, (Machine.decodeOperator_eq_instr h).2, hbs⟩

/-- Settles O5: at either place the bytes are the encoding of what was decoded, and an encoding has the length of its
instruction. -/
theorem decodedBytesAreTheEncoding : Obligations.DecodedBytesAreTheEncoding := by
  unfold Obligations.DecodedBytesAreTheEncoding
  intro p bs rest i h
  obtain ⟨hwf, hpos, rfl⟩ := decode_eq_encode h
  exact ⟨hwf, hpos, rfl, by simp⟩

/-- Settles O1: each word is the encoding of the instruction it stands for, followed by what is left. -/
theorem referenceWordsDecode : Obligations.ReferenceWordsDecode := by
  unfold Obligations.ReferenceWordsDecode
  exact ⟨decode_encode (.header 0x716F6966#32 258#32 196612#32 4#8 0#8) [] rfl,
    decode_encode (.rgb 254#8 255#8 192#8) [] rfl,
    decode_encode (.rgba 10#8 20#8 30#8 40#8) [] rfl,
    decode_encode (.index 12#6) [0x0D#8] rfl,
    decode_encode (.diff 3#2 2#2 1#2) [] rfl,
    decode_encode (.luma 37#6 3#4 12#4) [] rfl,
    decode_encode (.run 5#6) [] rfl⟩

/-! ### Rejection -/

theorem decodeOperator_cutShort {b0 : Byte} {more : List Byte} {t : Tag} (hc : classify b0 = some t)
    (hlen : more.length < t.operandBytes) : decodeOperator (b0 :: more) = .rejected (.operatorEnd b0) := by
  cases t with
  | rgb | rgba | luma =>
    simp only [decodeOperator, hc]
    split
    next =>
      simp only [Tag.operandBytes, List.length_cons] at hlen
      omega
    next => rfl
  | index | diff | run => cases hlen

theorem decodeOperator_whole {b0 : Byte} {more : List Byte} {t : Tag} (hc : classify b0 = some t)
    (hlen : t.operandBytes ≤ more.length) : ∃ i rest, decodeOperator (b0 :: more) = .instr i rest := by
  cases t with
  | rgb =>
    match more, hlen with
    | r :: g :: b :: rest, _ => exact ⟨_, _, decodeOperator_rgb hc r g b rest⟩
  | rgba =>
    match more, hlen with
    | r :: g :: b :: a :: rest, _ => exact ⟨_, _, decodeOperator_rgba hc r g b a rest⟩
  | index => exact ⟨_, _, decodeOperator_index hc more⟩
  | diff => exact ⟨_, _, decodeOperator_diff hc more⟩
  | luma =>
    match more, hlen with
    | b1 :: rest, _ => exact ⟨_, _, decodeOperator_luma hc b1 rest⟩
  | run => exact ⟨_, _, decodeOperator_run hc more⟩

theorem decodeOperator_cons_eq_rejected_iff {b0 : Byte} {more : List Byte} {r : Reject} {t : Tag}
    (hc : classify b0 = some t) :
    decodeOperator (b0 :: more) = .rejected r ↔ more.length < t.operandBytes ∧ r = .operatorEnd b0 := by
  by_cases hlen : more.length < t.operandBytes
  · simp [decodeOperator_cutShort hc hlen, hlen, eq_comm]
  · obtain ⟨i, rest, hi⟩ := decodeOperator_whole hc (Nat.le_of_not_lt hlen)
    simp [hi, hlen]

/-- Settles O6: every byte has a tag, and the tag says how many operand bytes it wants. -/
theorem operatorsAreRejectedOnlyWhenCutShort : Obligations.OperatorsAreRejectedOnlyWhenCutShort := by
  unfold Obligations.OperatorsAreRejectedOnlyWhenCutShort
  intro bs r
  cases bs with
  | nil => simp [decode, decodeOperator, eq_comm]
  | cons b0 more =>
    obtain ⟨t, hc⟩ := Option.ne_none_iff_exists'.1 (classify_ne_none b0)
    simp [decode, decodeOperator_cons_eq_rejected_iff hc, hc]

/-! ### The tag table -/

theorem classifyByTable_eq_classify : ∀ b0 : Byte, classifyByTable b0 = classify b0 := by decide

/-- A row that matches a byte is the row of its tag, except that RUN's also matches 0xFE and 0xFF. -/
theorem classify_of_mem_tagTable : ∀ x ∈ tagTable, ∀ b0 : Byte, b0 &&& x.mask = x.value →
    classify b0 = some x.tag ∨ (x.tag = .run ∧ (classify b0 = some .rgb ∨ classify b0 = some .rgba)) := by decide

theorem tagTable_eq_of_tag_eq : ∀ x ∈ tagTable, ∀ y ∈ tagTable, x.tag = y.tag → x = y := by decide

/-- Settles O3: two rows that match one byte both stand for its tag, or one of them is RUN. -/
theorem tagTableGivesTheClassifier : Obligations.TagTableGivesTheClassifier := by
  unfold Obligations.TagTableGivesTheClassifier
  refine ⟨classifyByTable_eq_classify, fun b0 x hx y hy hbx hby => ?_⟩
  rcases classify_of_mem_tagTable x hx b0 hbx with hcx | ⟨hx_run, hcx⟩ <;>
    rcases classify_of_mem_tagTable y hy b0 hby with hcy | ⟨hy_run, hcy⟩
  · exact .inl (tagTable_eq_of_tag_eq x hx y hy (Option.some.inj (hcx.symm.trans hcy)))
  · rw [hcx] at hcy
    exact .inr (.inr ⟨hy_run, by simpa using hcy⟩)
  · rw [hcy] at hcx
    exact .inr (.inl ⟨hx_run, by simpa using hcx⟩)
  · exact .inl (tagTable_eq_of_tag_eq x hx y hy (hx_run.trans hy_run.symm))

end Sys2Proof
end

section
/-! PROOF. The assembler's operands (R53, R59): an item assembles where its numbers have fields, and its bytes are the
encoding of those fields. -/

namespace Sys2Proof.Machine

/-! ### Biased fields -/

theorem asmBiased_eq_some_iff {w : Nat} {bias d : Int} {f : BitVec w} :
    asmBiased w bias d = some f ↔ (f.toNat : Int) - bias = d := by
  have hf : (f.toNat : Int) < 2 ^ w := by exact_mod_cast f.isLt
  unfold asmBiased
  split
  next h =>
    obtain ⟨h0, hw⟩ := h
    have hnat : (d + bias).toNat < 2 ^ w := by zify; rwa [Int.toNat_of_nonneg h0]
    rw [Option.some.injEq, ← BitVec.toNat_inj, BitVec.toNat_ofNat, Nat.mod_eq_of_lt hnat]
    omega
  next h =>
    simp only [reduceCtorEq, false_iff]
    omega

/-- The numbers that have a biased field of `w` bits. -/
theorem exists_biased_iff (w : Nat) (bias d : Int) :
    (∃ f : BitVec w, (f.toNat : Int) - bias = d) ↔ -bias ≤ d ∧ d ≤ 2 ^ w - 1 - bias := by
  simp only [← asmBiased_eq_some_iff, ← Option.isSome_iff_exists, asmBiased, Option.isSome_ite]
  omega

theorem exists_diffDelta_iff (d : Int) : (∃ f, diffDelta f = d) ↔ -2 ≤ d ∧ d ≤ 1 :=
  exists_biased_iff 2 Config.diffBias d

theorem exists_lumaDg_iff (d : Int) : (∃ f, lumaDg f = d) ↔ -32 ≤ d ∧ d ≤ 31 :=
  exists_biased_iff 6 Config.lumaGBias d

theorem exists_lumaDiff_iff (d : Int) : (∃ f, lumaDiff f = d) ↔ -8 ≤ d ∧ d ≤ 7 :=
  exists_biased_iff 4 Config.lumaRBBias d

/-! ### The bytes of an item are the encoding of fields that stand for its numbers -/

theorem assemble_diff_eq_some_iff {dr dg db : Int} {bs : List Byte} :
    assemble (.diff dr dg db) = some bs ↔ ∃ fr fg fb, diffDelta fr = dr ∧ diffDelta fg = dg ∧ diffDelta fb = db ∧
      encode (.diff fr fg fb) = bs := by
  simp [assemble, asmInstr, asmDiff, Option.bind_eq_some_iff, asmBiased_eq_some_iff, diffDelta]

theorem assemble_luma_eq_some_iff {dg drg dbg : Int} {bs : List Byte} :
    assemble (.luma dg drg dbg) = some bs ↔ ∃ fg frg fbg, lumaDg fg = dg ∧ lumaDiff frg = drg ∧ lumaDiff fbg = dbg ∧
      encode (.luma fg frg fbg) = bs := by
  simp [assemble, asmInstr, asmLuma, Option.bind_eq_some_iff, asmBiased_eq_some_iff, lumaDg, lumaDiff]

theorem asmRun_eq_some_iff {n : Nat} {i : Instr} :
    asmRun n = some i ↔ ∃ f, f.toNat ≤ 61 ∧ runCount f = n ∧ .run f = i := by
  simp only [asmRun, runCount, Config.runBias]
  split
  next h =>
    have hnat : (BitVec.ofNat 6 (n - 1)).toNat = n - 1 := (BitVec.toNat_ofNat ..).trans (Nat.mod_eq_of_lt (by omega))
    constructor
    · rintro ⟨⟩
      exact ⟨_, by omega, by omega, rfl⟩
    · rintro ⟨f, -, rfl, rfl⟩
      simp
  next h =>
    simp only [reduceCtorEq, false_iff]
    rintro ⟨f, hf, rfl, -⟩
    omega

theorem assemble_run_eq_some_iff {n : Nat} {bs : List Byte} :
    assemble (.run n) = some bs ↔ ∃ f, f.toNat ≤ 61 ∧ runCount f = n ∧ encode (.run f) = bs := by
  simp [assemble, asmInstr, asmRun_eq_some_iff, and_assoc]

/-! ### Which items assemble -/

theorem assemble_diff_isSome_iff (dr dg db : Int) : (assemble (.diff dr dg db)).isSome ↔
    (-2 ≤ dr ∧ dr ≤ 1) ∧ (-2 ≤ dg ∧ dg ≤ 1) ∧ (-2 ≤ db ∧ db ≤ 1) := by
  simp only [Option.isSome_iff_exists, assemble_diff_eq_some_iff, ← exists_diffDelta_iff]
  constructor
  · rintro ⟨-, fr, fg, fb, hr, hg, hb, -⟩
    exact ⟨⟨fr, hr⟩, ⟨fg, hg⟩, ⟨fb, hb⟩⟩
  · rintro ⟨⟨fr, hr⟩, ⟨fg, hg⟩, ⟨fb, hb⟩⟩
    exact ⟨_, fr, fg, fb, hr, hg, hb, rfl⟩

theorem assemble_luma_isSome_iff (dg drg dbg : Int) : (assemble (.luma dg drg dbg)).isSome ↔
    (-32 ≤ dg ∧ dg ≤ 31) ∧ (-8 ≤ drg ∧ drg ≤ 7) ∧ (-8 ≤ dbg ∧ dbg ≤ 7) := by
  simp only [Option.isSome_iff_exists, assemble_luma_eq_some_iff, ← exists_lumaDg_iff, ← exists_lumaDiff_iff]
  constructor
  · rintro ⟨-, fg, frg, fbg, hg, hrg, hbg, -⟩
    exact ⟨⟨fg, hg⟩, ⟨frg, hrg⟩, ⟨fbg, hbg⟩⟩
  · rintro ⟨⟨fg, hg⟩, ⟨frg, hrg⟩, ⟨fbg, hbg⟩⟩
    exact ⟨_, fg, frg, fbg, hg, hrg, hbg, rfl⟩

theorem assemble_run_isSome_iff (n : Nat) : (assemble (.run n)).isSome ↔ 1 ≤ n ∧ n ≤ 62 := by
  simp [assemble, asmInstr, asmRun]

/-- R46 to R52 where nothing follows the operator. -/
theorem decode_operator_encode {i : Instr} (hpos : i.position = .operator) (hwf : i.wellFormed = true) :
    decode .operator (encode i) = .instr i [] := by
  simpa [hpos] using decode_encode i [] hwf

/-- Settles O7: the ranges are those of the fields' numbers, and the bytes of the fields decode to them. -/
theorem assemblyMeansItsOperands : Obligations.AssemblyMeansItsOperands := by
  unfold Obligations.AssemblyMeansItsOperands
  refine ⟨fun dr dg db => ⟨assemble_diff_isSome_iff dr dg db, fun bs h => ?_⟩,
    fun dg drg dbg => ⟨assemble_luma_isSome_iff dg drg dbg, fun bs h => ?_⟩,
    fun n => ⟨assemble_run_isSome_iff n, fun bs h => ?_⟩⟩
  · obtain ⟨fr, fg, fb, hr, hg, hb, rfl⟩ := assemble_diff_eq_some_iff.1 h
    exact ⟨fr, fg, fb, decode_operator_encode rfl rfl, hr, hg, hb⟩
  · obtain ⟨fg, frg, fbg, hg, hrg, hbg, rfl⟩ := assemble_luma_eq_some_iff.1 h
    exact ⟨fg, frg, fbg, decode_operator_encode rfl rfl, hg, hrg, hbg⟩
  · obtain ⟨f, hf, hn, rfl⟩ := assemble_run_eq_some_iff.1 h
    exact ⟨f, decode_operator_encode rfl (decide_eq_true hf), hn⟩

end Sys2Proof.Machine
end

section
/-! PROOF. HEADER by the table of R63, as an instruction and at the step, and that no operator reads the two registers
of R64. -/

namespace Sys2Proof.Machine

/-! ### The three ways HEADER can go -/

theorem State.headerLoads_loadHeader (s : State) (bs : List Byte) (b : Byte) (h : Header) :
    HeaderLoads s ((((s.latchHeaderBytes bs).latchLastHeaderByte b).consume 14).loadHeader h) h where
  pos := rfl
  hdr := rfl
  hdrValid := rfl
  sub := rfl
  errCode := rfl
  errPos := rfl
  pixels := ⟨rfl, rfl, rfl, rfl, rfl⟩
  stream := rfl
  commands := rfl
  draws := rfl
  latches := ⟨rfl, rfl, rfl, rfl, rfl⟩

/-- An error taken at offset 0 with `n` bytes gone, when only the record's own latches have changed. -/
theorem State.headerFails_raise (s : State) (bs : List Byte) (n : Nat) (e : ErrCode) :
    HeaderFails s ({ s.latchHeaderBytes bs with pos := n }.raise e 0) e n where
  pos := rfl
  sub := rfl
  errCode := rfl
  errPos := rfl
  pixels := ⟨rfl, rfl, rfl, rfl, rfl⟩
  hdr := rfl
  hdrValid := rfl
  stream := rfl
  commands := rfl
  draws := rfl
  latches := ⟨rfl, rfl, rfl, rfl, rfl⟩

/-- A header that fails emits nothing, so that only the bytes it consumed count against the limits. -/
theorem HeaderFails.commit_eq {s t : State} {e : ErrCode} {n : Nat} (h : HeaderFails s t e n)
    (hpos : n < Config.counterLimit) (hcursor : s.cursor < Config.counterLimit) : t.commit = .next t :=
  t.commit_of_lt (h.pos ▸ hpos) (h.pixels.cursor ▸ hcursor)

/-- R63: the stream ended inside HEADER. -/
theorem State.headerEnded_answers {s : State} (hpos : s.pos = 0) (hroom : s.Room s.stream.length 0) :
    ∃ t, s.headerEnded.commit = .next t ∧ HeaderFails s t .unexpectedEndOfStream s.stream.length := by
  obtain ⟨hbytes, hcursor⟩ := hroom
  have hfails : HeaderFails s s.headerEnded .unexpectedEndOfStream s.stream.length := s.headerFails_raise _ _ _
  exact ⟨_, hfails.commit_eq (by omega) hcursor, hfails⟩

/-- R62: another magic. -/
theorem State.magicMismatch_answers {s : State} (m : BitVec 32) (hpos : s.pos = 0) (hfour : 4 ≤ s.stream.length)
    (hroom : s.Room s.stream.length 0) :
    ∃ t, (s.magicMismatch m).commit = .next t ∧ HeaderFails s t .formatError 4 := by
  obtain ⟨hbytes, hcursor⟩ := hroom
  have hfails : HeaderFails s (s.magicMismatch m) .formatError (s.pos + 4) := s.headerFails_raise _ _ _
  rw [hpos] at hfails
  exact ⟨_, hfails.commit_eq (by omega) hcursor, hfails⟩

/-! ### HEADER as an instruction -/

theorem exec_header_of_fits {m : BitVec 32} {s : State} (w h : BitVec 32) (c cs : Byte) (hm : m = Config.magic)
    (hfit : s.pos + 14 ≤ s.stream.length) :
    ∃ t, HeaderLoads s t ⟨m, w, h, c, cs⟩ ∧ exec (.header m w h c cs) s = t.commit := by
  have h4 : s.fits 4 = true := (s.fits_iff 4).2 (by omega)
  have h14 : s.fits 14 = true := (s.fits_iff 14).2 hfit
  rw [exec, execHeader, if_pos h4, if_pos hm, if_pos h14]
  exact ⟨_, s.headerLoads_loadHeader _ _ _, rfl⟩

theorem exec_header_of_otherMagic {m : BitVec 32} {s : State} (w h : BitVec 32) (c cs : Byte) (hm : m ≠ Config.magic)
    (hfit : s.pos + 4 ≤ s.stream.length) : exec (.header m w h c cs) s = (s.magicMismatch m).commit := by
  have h4 : s.fits 4 = true := (s.fits_iff 4).2 hfit
  rw [exec, execHeader, if_pos h4, if_neg hm]

theorem exec_header_of_end {m : BitVec 32} {s : State} (w h : BitVec 32) (c cs : Byte)
    (hend : s.stream.length < s.pos + 14) (hcut : m = Config.magic ∨ s.stream.length < s.pos + 4) :
    exec (.header m w h c cs) s = s.headerEnded.commit := by
  have h14 : ¬s.fits 14 = true := fun hf => absurd ((s.fits_iff 14).1 hf) (by omega)
  rw [exec, execHeader]
  by_cases h4 : s.fits 4 = true
  · have hfour := (s.fits_iff 4).1 h4
    rw [if_pos h4, if_pos (hcut.resolve_right (by omega)), if_neg h14]
  · rw [if_neg h4]

theorem exec_header_loads {m : BitVec 32} {s : State} (w h : BitVec 32) (c cs : Byte) (hm : m = Config.magic)
    (hpos : s.pos = 0) (hfit : 14 ≤ s.stream.length) (hroom : s.Room s.stream.length 0) :
    ∃ t, exec (.header m w h c cs) s = .next t ∧ HeaderLoads s t ⟨m, w, h, c, cs⟩ := by
  obtain ⟨hbytes, hcursor⟩ := hroom
  obtain ⟨t, hloads, heq⟩ := exec_header_of_fits w h c cs hm (s := s) (by omega)
  have hp := hloads.pos
  exact ⟨t, heq.trans (t.commit_of_lt (by omega) (hloads.pixels.cursor ▸ hcursor)), hloads⟩

/-- Settles O11: the order of HEADER's checks (R105) leaves one way for each length and magic. -/
theorem headerLoadsOrFails : Obligations.HeaderLoadsOrFails := by
  unfold Obligations.HeaderLoadsOrFails
  intro m w h c cs s hpos hroom
  refine ⟨fun hfit hm => exec_header_loads w h c cs hm hpos hfit hroom, fun hfour hm => ?_, fun hend hcut => ?_⟩
  · rw [exec_header_of_otherMagic w h c cs hm (by omega)]
    exact State.magicMismatch_answers m hpos hfour hroom
  · rw [exec_header_of_end w h c cs (by omega) (by rwa [hpos, Nat.zero_add])]
    exact State.headerEnded_answers hpos hroom

/-! ### HEADER at the step -/

theorem beWord_eq_iff {x0 x1 x2 x3 : Byte} {w : BitVec 32} :
    beWord x0 x1 x2 x3 = w ↔ [x0, x1, x2, x3] = beBytes w := by
  constructor
  · rintro rfl
    exact (beBytes_beWord x0 x1 x2 x3).symm
  · intro h
    simp only [beBytes, List.cons.injEq, and_true] at h
    obtain ⟨rfl, rfl, rfl, rfl⟩ := h
    exact beWord_beByte w

/-- R46: the magic's bytes in stream order (PRESUMED, log entry 1). -/
theorem beBytes_magic : beBytes Config.magic = [0x71#8, 0x6F#8, 0x69#8, 0x66#8] := by decide

/-- R63: too few bytes for the record, with nothing wrong in those of the magic. -/
theorem decodeHeader_of_short {bs : List Byte} (hlen : bs.length < 14)
    (hmagic : 4 ≤ bs.length → bs.take 4 = beBytes Config.magic) : decodeHeader bs = .rejected .headerEnd := by
  unfold decodeHeader
  split
  next m0 m1 m2 m3 more =>
    rw [if_pos (beWord_eq_iff.2 (hmagic (by simp)))]
    split
    next => simp only [List.length_cons] at hlen; omega
    next => rfl
  next => rfl

/-- R62: the magic is judged as soon as its four bytes are there. -/
theorem decodeHeader_of_otherMagic {m0 m1 m2 m3 : Byte} (more : List Byte)
    (h : [m0, m1, m2, m3] ≠ beBytes Config.magic) :
    decodeHeader (m0 :: m1 :: m2 :: m3 :: more) = .rejected .badMagic :=
  if_neg (mt beWord_eq_iff.1 h)

theorem decodeHeader_record (w0 w1 w2 w3 h0 h1 h2 h3 c cs : Byte) (rest : List Byte) :
    decodeHeader ([0x71#8, 0x6F#8, 0x69#8, 0x66#8, w0, w1, w2, w3, h0, h1, h2, h3, c, cs] ++ rest) =
      .instr (.header Config.magic (beWord w0 w1 w2 w3) (beWord h0 h1 h2 h3) c cs) rest := by
  have h := decode_encode (.header Config.magic (beWord w0 w1 w2 w3) (beWord h0 h1 h2 h3) c cs) rest rfl
  rw [encode, beBytes_beWord, beBytes_beWord, beBytes_magic] at h
  exact h

theorem State.unread_of_pos_zero {s : State} (h : s.pos = 0) : s.unread = s.stream := by
  rw [State.unread, h, List.drop_zero]

theorem step_of_no_command {s : State} (h : s.commands = []) : step s = advance s := by rw [step, stepOnce, h]

/-- R61: at the first byte of the record the step reads HEADER. -/
theorem advance_of_headerStart {s : State} (hsub : s.sub = .hdr) (hcnt : s.hidden.cnt = 0#4) :
    advance s = runItem .header s := by
  rw [advance, hsub]
  exact if_pos hcnt

theorem runItem_of_instr {p : Position} {s : State} {i : Instr} {rest : List Byte}
    (h : decode p s.unread = .instr i rest) : runItem p s = exec i s := by rw [runItem, h]

theorem runItem_of_rejected {p : Position} {s : State} {r : Reject} (h : decode p s.unread = .rejected r) :
    runItem p s = takeReject r s := by rw [runItem, h]

/-- R63: both rows in which the stream ends first. -/
theorem runItem_header_of_short {s : State} (hpos : s.pos = 0) (hroom : s.Room s.stream.length 0)
    (hlen : s.stream.length < 14) (hmagic : 4 ≤ s.stream.length → s.stream.take 4 = beBytes Config.magic) :
    ∃ t, runItem .header s = .next t ∧ HeaderFails s t .unexpectedEndOfStream s.stream.length := by
  have hd : decode .header s.unread = .rejected .headerEnd := by
    rw [State.unread_of_pos_zero hpos]
    exact decodeHeader_of_short hlen hmagic
  rw [runItem_of_rejected hd]
  exact State.headerEnded_answers hpos hroom

theorem runItem_header_of_otherMagic {s : State} (hpos : s.pos = 0) (hroom : s.Room s.stream.length 0)
    (hfour : 4 ≤ s.stream.length) (hmagic : s.stream.take 4 ≠ beBytes Config.magic) :
    ∃ t, runItem .header s = .next t ∧ HeaderFails s t .formatError 4 := by
  obtain ⟨m0, m1, m2, m3, more, hstream⟩ : ∃ m0 m1 m2 m3 more, s.stream = m0 :: m1 :: m2 :: m3 :: more := by
    match h : s.stream with
    | m0 :: m1 :: m2 :: m3 :: more => exact ⟨m0, m1, m2, m3, more, rfl⟩
    | [] | [_] | [_, _] | [_, _, _] => simp [h] at hfour
  have hunread := (State.unread_of_pos_zero hpos).trans hstream
  have hd : decode .header s.unread = .rejected .badMagic := by
    rw [hunread]
    exact decodeHeader_of_otherMagic more (by simpa [hstream] using hmagic)
  rw [runItem_of_rejected hd, takeReject, hunread]
  exact State.magicMismatch_answers (beWord m0 m1 m2 m3) hpos hfour hroom

/-- Settles O29: what the decoder answers for each row, and what the step makes of it. -/
theorem headerStepFollowsTheTable : Obligations.HeaderStepFollowsTheTable := by
  unfold Obligations.HeaderStepFollowsTheTable
  intro s hsub hcnt hpos hquiet hroom
  rw [step_of_no_command hquiet, advance_of_headerStart hsub hcnt, ← beBytes_magic]
  refine ⟨fun hlen => ?_, runItem_header_of_otherMagic hpos hroom, fun _ hlen hm => ?_,
    fun w0 w1 w2 w3 h0 h1 h2 h3 c cs rest hstream => ?_⟩
  · exact runItem_header_of_short hpos hroom (by omega) fun hfour => by omega
  · exact runItem_header_of_short hpos hroom hlen fun _ => hm
  · have hd := decodeHeader_record w0 w1 w2 w3 h0 h1 h2 h3 c cs rest
    rw [← hstream, ← State.unread_of_pos_zero hpos] at hd
    rw [runItem_of_instr (p := .header) hd]
    exact exec_header_loads _ _ c cs rfl hpos (by simp [hstream]) hroom

/-! ### Channels and colorspace -/

/-- Other values in the two registers that steer nothing (R64). -/
def State.recolour (s : State) (c cs : Byte) : State :=
  { s with hdr := { s.hdr with channels := c, colorspace := cs } }

/-- `Emit` asks the header for the size of the image only (R79). -/
theorem State.recolour_emitTimes (s : State) (c cs : Byte) (p : Pixel) (n : Nat) :
    (s.recolour c cs).emitTimes p n = (s.emitTimes p n).recolour c cs := by
  induction n generalizing s with
  | zero => rfl
  | succ n ih => exact ih (s.emit p)

theorem State.recolour_produce (s : State) (c cs : Byte) (p : Pixel) (n : Nat) :
    (s.recolour c cs).produce p n = (s.produce p n).recolour c cs :=
  State.recolour_emitTimes (s.latchPend p 0#6) c cs p n

/-- The second outcome answers what the first one answers, with other values in the two registers. -/
def AnswersRecoloured (c cs : Byte) (o o' : Host.Outcome State Fault Refusal) : Prop :=
  ∀ t, o = .next t → o' = .next (t.recolour c cs)

theorem AnswersRecoloured.commit (s : State) (c cs : Byte) :
    AnswersRecoloured c cs s.commit (s.recolour c cs).commit := by
  intro t h
  obtain ⟨rfl, hpos, hcursor⟩ := (State.commit_eq_next_iff s t).1 h
  exact State.commit_of_lt _ hpos hcursor

theorem AnswersRecoloured.produce (s : State) (p : Pixel) (n : Nat) (c cs : Byte) :
    AnswersRecoloured c cs (s.produce p n).commit ((s.recolour c cs).produce p n).commit := by
  rw [State.recolour_produce]
  exact .commit _ c cs

/-- An operator asks how many bytes are left, which the two registers do not change (R103). -/
theorem AnswersRecoloured.ite {c cs : Byte} {o o' u u' : Host.Outcome State Fault Refusal} {fits : Bool}
    (hwhole : AnswersRecoloured c cs o o') (hcut : AnswersRecoloured c cs u u') :
    AnswersRecoloured c cs (if fits then o else u) (if fits then o' else u') := by
  cases fits with
  | true => exact hwhole
  | false => exact hcut

/-- R64(a), R76. -/
theorem exec_answersRecoloured {i : Instr} (hi : i.position = .operator) (s : State) (c cs : Byte) :
    AnswersRecoloured c cs (exec i s) (exec i (s.recolour c cs)) := by
  cases i with
  | header => cases hi
  | rgb r g b => exact .ite (.produce _ _ 1 c cs) (.commit (s.literalEnded 0xFE#8) c cs)
  | rgba r g b a => exact .ite (.produce _ _ 1 c cs) (.commit (s.literalEnded 0xFF#8) c cs)
  | index k => exact .produce (s.consume 1) _ 1 c cs
  | diff fr fg fb => exact .produce (s.consume 1) _ 1 c cs
  | luma fg frg fbg => exact .ite (.produce _ _ 1 c cs) (.commit (s.lumaEnded (lumaTag fg)) c cs)
  | run n => exact .produce (s.consume 1) _ (runCount n) c cs

/-- Settles O19: no operator reads the two registers, neither for its pixels nor for its length. -/
theorem channelsAndColorspaceSteerNothing : Obligations.ChannelsAndColorspaceSteerNothing := by
  unfold Obligations.ChannelsAndColorspaceSteerNothing
  intro i s t c cs hi h
  exact exec_answersRecoloured hi s c cs t h

end Sys2Proof.Machine
end

section
/-! PROOF. The classifier by the ranges of the tag byte (R65, R66), and that DecodeError is never raised (R67, D20). -/

namespace Sys2Proof

/-! ### The ranges of the tag byte -/

theorem topBits_eq_iff (b0 : Byte) (x : BitVec 2) : topBits b0 = x ↔ b0.toNat / 64 = x.toNat := by
  have hlt := b0.isLt
  have htop : (topBits b0).toNat = b0.toNat / 64 := by
    rw [topBits, BitVec.extractLsb'_toNat, Nat.shiftRight_eq_div_pow]
    omega
  rw [← BitVec.toNat_inj, htop]

/-- Settles O2: past the two bytes that R65 tests first, the top two bits are the quarter in which the byte lies. -/
theorem classifierFollowsPriority : Obligations.ClassifierFollowsPriority := by
  unfold Obligations.ClassifierFollowsPriority
  intro b0
  have hlt := b0.isLt
  rw [classify]
  by_cases hrgb : b0 = 0xFE#8
  · rw [if_pos hrgb, if_pos hrgb]
  by_cases hrgba : b0 = 0xFF#8
  · rw [if_neg hrgb, if_neg hrgb, if_pos hrgba, if_pos hrgba]
  simp only [hrgb, hrgba, topBits_eq_iff, BitVec.toNat_ofNat, if_false]
  by_cases hindex : b0.toNat ≤ 0x3F
  · rw [if_pos (by omega), if_pos hindex]
  by_cases hdiff : b0.toNat ≤ 0x7F
  · rw [if_neg (by omega), if_pos (by omega), if_neg hindex, if_pos hdiff]
  by_cases hluma : b0.toNat ≤ 0xBF
  · rw [if_neg (by omega), if_neg (by omega), if_pos (by omega), if_neg hindex, if_neg hdiff, if_pos hluma]
  · rw [if_neg (by omega), if_neg (by omega), if_neg (by omega), if_pos (by omega), if_neg hindex, if_neg hdiff,
      if_neg hluma]

end Sys2Proof

namespace Sys2Proof.Machine

/-! ### No item raises DecodeError -/

/-- No error, or one of the two that the block can raise (R101, R103). -/
def NoDecodeError (s : State) : Prop := s.errCode ≠ .decodeError

theorem NoDecodeError.of_errCode_eq {s t : State} (hs : NoDecodeError s) (h : t.errCode = s.errCode) :
    NoDecodeError t := by rwa [NoDecodeError, h]

theorem NoDecodeError.of_errCode_eq_none {s : State} (h : s.errCode = .none) : NoDecodeError s := by
  simp [NoDecodeError, h]

theorem noDecodeError_raise (s : State) {e : ErrCode} (q : Nat) (he : e ≠ .decodeError) :
    NoDecodeError (s.raise e q) := he

theorem HeaderEffect.noDecodeError {s t : State} (h : HeaderEffect s t) (hs : NoDecodeError s) : NoDecodeError t := by
  cases h with
  | loaded => exact hs
  | ended => exact noDecodeError_raise _ _ (by decide)
  | mismatched => exact noDecodeError_raise _ _ (by decide)

theorem OperatorEffect.noDecodeError {s t : State} (h : OperatorEffect s t) (hs : NoDecodeError s) :
    NoDecodeError t := by
  cases h with
  | ended => exact hs
  | emitted l len n p => exact hs.of_errCode_eq (State.emitTimes_errCode _ p n)
  | cutShort => exact noDecodeError_raise _ _ (by decide)

/-! ### No clock edge raises DecodeError -/

theorem State.TakesByte.noDecodeError {s t : State} (h : s.TakesByte t) (hs : NoDecodeError s) : NoDecodeError t := by
  obtain ⟨l, x, -⟩ := h
  exact hs

theorem NoDecodeError.hdrByte {s : State} (hs : NoDecodeError s) (b : Byte) : NoDecodeError (s.hdrByte b) := by
  unfold State.hdrByte
  dsimp only
  split
  next => exact noDecodeError_raise _ _ (by decide)
  next => split <;> exact hs

theorem NoDecodeError.emitPend {s : State} (hs : NoDecodeError s) : NoDecodeError s.emitPend := by
  unfold State.emitPend
  dsimp only
  split <;> exact hs

/-- The source need not keep the protocol: a byte and the end may come at any time. -/
theorem NoDecodeError.receive {s : State} {i : Inputs} {onByte : Byte → State} {onEos : State} (hs : NoDecodeError s)
    (hbyte : NoDecodeError (onByte i.inData)) (heos : NoDecodeError onEos) :
    NoDecodeError (s.receive i onByte onEos) := by
  unfold State.receive
  split
  · exact hbyte
  · split
    · exact heos
    · exact hs

theorem NoDecodeError.perDecodeReset_if {s : State} (hs : NoDecodeError s) (c : Bool) :
    NoDecodeError (if c then s.perDecodeReset else s) := by
  split
  · exact .of_errCode_eq_none rfl
  · exact hs

/-- A tag byte is always some operator's (R67); what is left to raise is the end of the stream and a wrong magic. -/
theorem NoDecodeError.transition {s : State} (hs : NoDecodeError s) (i : Inputs) : NoDecodeError (s.transition i) := by
  unfold State.transition
  split
  next => exact .of_errCode_eq_none rfl
  next =>
    split
    next => exact hs.perDecodeReset_if i.start
    next => exact hs.perDecodeReset_if i.start
    next => exact hs.perDecodeReset_if i.start
    next => exact hs.receive (hs.hdrByte _) (noDecodeError_raise s _ (by decide))
    next => exact hs.receive ((s.takesByte_opByte _).noDecodeError hs) hs
    next hsub => exact hs.receive ((s.takesByte_litByte _ hsub).noDecodeError hs) (noDecodeError_raise s _ (by decide))
    next => exact hs.receive ((s.takesByte_lumaSecond _).noDecodeError hs) (noDecodeError_raise s _ (by decide))
    next =>
      split
      · exact hs
      · exact hs.emitPend

/-! ### No step raises DecodeError -/

theorem NoDecodeError.finish {s : State} (hs : NoDecodeError s) : NoDecodeError s.finish :=
  State.driveToBoundary_induction (fun s h => h.transition s.readyInputs) hs _

theorem NoDecodeError.advance {s t : State} (hs : NoDecodeError s) (h : advance s = .next t) : NoDecodeError t := by
  rcases advance_cases h with ⟨-, rfl⟩ | ⟨-, ⟨-, -, heff⟩ | ⟨-, heff⟩ | ⟨-, rfl⟩⟩
  · exact hs
  · exact heff.noDecodeError hs
  · exact heff.noDecodeError hs
  · exact hs.finish

theorem NoDecodeError.step {s t : State} (hs : NoDecodeError s) (h : step s = .next t) : NoDecodeError t := by
  rcases step_cases h with ⟨hadv, -⟩ | ⟨S, -, -, rfl⟩ | ⟨-, rfl⟩
  · exact (show NoDecodeError (s.queue s.commands.tail) from hs).advance hadv
  · exact .of_errCode_eq_none rfl
  · exact .of_errCode_eq_none rfl

/-- Settles O32: the classifier is total (R67), and neither an item nor an edge raises an error other than the end of the
stream and the wrong magic. -/
theorem noStepRaisesDecodeError : Obligations.NoStepRaisesDecodeError := by
  unfold Obligations.NoStepRaisesDecodeError
  exact ⟨classify_ne_none, fun s hs => ⟨fun _ h => NoDecodeError.step hs h, NoDecodeError.transition hs⟩⟩

end Sys2Proof.Machine
end

section
/-! PROOF. What an operator of one pixel does once its latches are set, and the two literal operators RGB and RGBA (R69,
R70), whole or cut short (R103). -/

namespace Sys2Proof.Machine

/-! ### One pixel -/

/-- R79: the one index that `Emit` writes is the cursor, when it is inside the image. -/
theorem State.writes_one_iff (s : State) (i : Nat) : s.Writes 1 i ↔ i = s.cursor ∧ s.inside = true := by
  rw [State.inside_iff, State.Writes]
  omega

/-- R79: one `Emit`. -/
theorem State.emits_emit (s : State) (p : Pixel) : Emits s (s.emit p) p 1 where
  prev := rfl
  cursor := rfl
  cache k := by simp only [State.emit_cache_get, eq_comm]
  written i hw := by
    obtain ⟨rfl, hin⟩ := (s.writes_one_iff i).1 hw
    rw [State.emit_out, hin]
    exact Memory.readPixel_writePixel_same _ _ _
  others a ha := by
    rw [State.emit_out]
    cases hin : s.inside with
    | false => rfl
    | true =>
      exact Memory.readByte_writePixel_other _ _ _ _ fun c hc => ha _ c ((s.writes_one_iff _).2 ⟨rfl, hin⟩) hc
  trace := rfl

/-- `pend` and `rem` are no pixel state (R21). -/
theorem State.emits_produce_one (s : State) (p : Pixel) : Emits s (s.produce p 1) p 1 :=
  { (s.latchPend p 0#6).emits_emit p with }

/-! ### An operator that completes -/

/-- The frame of an operator's pixels, when only latches and `pos` have changed before. -/
theorem Completes.of_produce {s u : State} {len n : Nat} {p : Pixel} (hu : u = (s.latch u.hidden).consume len)
    (h : Emits u (u.produce p n) p n) :
    Completes s (u.produce p n) len p n { u.hidden with pend := p, rem := 0#6 } := by
  generalize u.hidden = l at hu ⊢
  subst hu
  refine ⟨?_, { h with }, ?_, ?_, ?_⟩
  · simp [State.latch]
  · constructor <;> simp [State.latch]
  · constructor <;> simp [State.latch]
  · simp [State.latch]

/-- The limits of R12 and R13 are those of the bytes consumed and the pixels emitted. -/
theorem Completes.commit_eq {s t : State} {len n : Nat} {p : Pixel} {l : Hidden} (h : Completes s t len p n l)
    (hroom : s.Room len n) : t.commit = .next t := by
  obtain ⟨hpos, hcursor⟩ := hroom
  exact t.commit_of_lt (h.pos ▸ hpos) (h.emits.cursor ▸ hcursor)

theorem State.produce_one_answers {s u : State} {len : Nat} (p : Pixel) (hu : u = (s.latch u.hidden).consume len)
    (hroom : s.Room len 1) :
    ∃ t, (u.produce p 1).commit = .next t ∧ Completes s t len p 1 { u.hidden with pend := p, rem := 0#6 } :=
  have h := Completes.of_produce hu (u.emits_produce_one p)
  ⟨_, h.commit_eq hroom, h⟩

/-! ### A literal operator cut short -/

theorem State.cutShort_literalEnded (s : State) (b0 : Byte) : CutShort s (s.literalEnded b0) b0 where
  pos := rfl
  sub := rfl
  errCode := rfl
  errPos := rfl
  pixels := ⟨rfl, rfl, rfl, rfl, rfl⟩
  setting := ⟨rfl, rfl, rfl, rfl, rfl⟩
  b0 := rfl
  opPos := rfl
  hbuf := rfl
  pend := rfl
  rem := rfl

/-- R93: `cnt` counts the operand bytes that were there; no literal operator has so many that four bits overflow. -/
theorem State.literalEnded_cnt {s : State} (b0 : Byte) (hend : s.stream.length < s.pos + 5) :
    (s.literalEnded b0).hidden.cnt.toNat = s.stream.length - (s.pos + 1) := by
  have hcnt : (s.literalEnded b0).hidden.cnt = 0#4 + BitVec.ofNat 4 (s.stream.drop (s.pos + 1)).length := rfl
  rw [hcnt, BitVec.zero_add, BitVec.toNat_ofNat, List.length_drop]
  omega

/-- R103: every byte that was left fits under the limit, and no pixel is emitted. -/
theorem State.literalEnded_answers {s : State} {len : Nat} (b0 : Byte) (hlen : len ≤ 5)
    (hend : s.stream.length < s.pos + len) (hroom : s.Room len 0) :
    ∃ t, (s.literalEnded b0).commit = .next t ∧ CutShort s t b0 ∧
      t.hidden.cnt.toNat = s.stream.length - (s.pos + 1) := by
  obtain ⟨hpos, hcursor⟩ := hroom
  have h := s.cutShort_literalEnded b0
  exact ⟨_, State.commit_of_lt _ (h.pos ▸ hend.trans hpos) (h.pixels.cursor ▸ hcursor), h,
    State.literalEnded_cnt b0 (by omega)⟩

/-! ### RGB and RGBA -/

theorem exec_rgb_of_fits {s : State} (r g b : Byte) (hfit : s.pos + 4 ≤ s.stream.length) :
    exec (.rgb r g b) s =
      (((((s.latchTag 0xFE#8).clearCnt).latchOperands [r, g]).consume 4).produce (rgbPixel s.prev r g b) 1).commit :=
  if_pos ((s.fits_iff 4).2 hfit)

theorem exec_rgb_of_end {s : State} (r g b : Byte) (hend : s.stream.length < s.pos + 4) :
    exec (.rgb r g b) s = (s.literalEnded 0xFE#8).commit :=
  if_neg (mt (s.fits_iff 4).1 (Nat.not_le.2 hend))

theorem exec_rgba_of_fits {s : State} (r g b a : Byte) (hfit : s.pos + 5 ≤ s.stream.length) :
    exec (.rgba r g b a) s =
      (((((s.latchTag 0xFF#8).clearCnt).latchOperands [r, g, b]).consume 5).produce ⟨r, g, b, a⟩ 1).commit :=
  if_pos ((s.fits_iff 5).2 hfit)

theorem exec_rgba_of_end {s : State} (r g b a : Byte) (hend : s.stream.length < s.pos + 5) :
    exec (.rgba r g b a) s = (s.literalEnded 0xFF#8).commit :=
  if_neg (mt (s.fits_iff 5).1 (Nat.not_le.2 hend))

/-- Settles O12: the pixel of the literals and the alpha of `prev` is emitted once the latches are set, or the end of
the stream is taken. -/
theorem rgbEmitsLiteralsKeepingAlpha : Obligations.RgbEmitsLiteralsKeepingAlpha := by
  unfold Obligations.RgbEmitsLiteralsKeepingAlpha
  refine fun r g b s => ⟨rfl, fun hfit hroom => ?_, fun _ hend hroom => ?_⟩
  · rw [exec_rgb_of_fits r g b hfit]
    exact State.produce_one_answers (rgbPixel s.prev r g b) rfl hroom
  · rw [exec_rgb_of_end r g b hend]
    exact State.literalEnded_answers _ (by decide) hend hroom

/-- Settles O13: the pixel of the four literals is emitted once the latches are set, or the end of the stream is
taken. -/
theorem rgbaEmitsFourLiterals : Obligations.RgbaEmitsFourLiterals := by
  unfold Obligations.RgbaEmitsFourLiterals
  refine fun r g b a s => ⟨rfl, fun hfit hroom => ?_, fun _ hend hroom => ?_⟩
  · rw [exec_rgba_of_fits r g b a hfit]
    exact State.produce_one_answers ⟨r, g, b, a⟩ rfl hroom
  · rw [exec_rgba_of_end r g b a hend]
    exact State.literalEnded_answers _ (by decide) hend hroom

end Sys2Proof.Machine
end

section
/-! PROOF. What emissions of a pixel do to its own slot of the cache (R79), and the operator INDEX (R71). -/

namespace Sys2Proof.Machine

/-! ### The slot of the emitted pixel -/

theorem Emits.cache_slotHash {s t : State} {p : Pixel} {n : Nat} (h : Emits s t p n) :
    t.cache.get (slotHash p) = p := by rw [h.cache, if_pos rfl]

/-- R79: the write to the slot of the pixel's own hash changes nothing where that pixel stands there already. -/
theorem Emits.cache_eq {s t : State} {p : Pixel} {n : Nat} (h : Emits s t p n)
    (hp : s.cache.get (slotHash p) = p) : t.cache = s.cache := by
  refine Vector.ext fun i hi => ?_
  have hslot : t.cache.get ⟨i, hi⟩ = s.cache.get ⟨i, hi⟩ := by
    rw [h.cache]
    split
    next hk => rw [hk, hp]
    next => rfl
  exact hslot

/-- R71(b): the pixel of a slot never written belongs to slot 0. -/
theorem slotHash_zero : slotHash ⟨0#8, 0#8, 0#8, 0#8⟩ = 0 := by decide

/-! ### INDEX -/

/-- INDEX completes with the pixel read from slot `k` before the `Emit`. -/
theorem exec_index_completes {s : State} (k : BitVec 6) (hroom : s.Room 1 1) :
    ∃ t, exec (.index k) s = .next t ∧
      Completes s t 1 (s.cache.get (slotOf k)) 1 { s.hidden with pend := s.cache.get (slotOf k), rem := 0#6 } :=
  State.produce_one_answers (u := s.consume 1) (s.cache.get (slotOf k)) rfl hroom

/-- Settles O14: INDEX completes with the pixel of slot `k`; the rest is what its one `Emit` does to the slot of that
pixel's own hash. -/
theorem indexEmitsTheCachedPixel : Obligations.IndexEmitsTheCachedPixel := by
  unfold Obligations.IndexEmitsTheCachedPixel
  refine fun k s => ⟨rfl, fun hroom => ?_⟩
  obtain ⟨t, hexec, hdone⟩ := exec_index_completes k hroom
  refine ⟨t, hexec, hdone, fun hhash => ?_, fun hzero => ?_⟩
  · exact hdone.emits.cache_eq (by rw [hhash])
  · have hown := hdone.emits.cache_slotHash
    rwa [hzero, slotHash_zero] at hown

end Sys2Proof.Machine
end

section
/-! PROOF. Component arithmetic modulo 256 (R7, R74), and the delta operators DIFF and LUMA (R72, R73), the second whole
or cut short (R103). -/

namespace Sys2Proof.Machine

/-! ### Component arithmetic -/

/-- R7: `wrap8` is the cut of an integer to eight bits. -/
theorem wrap8_eq_ofInt (x : Int) : wrap8 x = BitVec.ofInt 8 x := by
  rw [wrap8, ← BitVec.toNat_inj, BitVec.toNat_ofNat, BitVec.toNat_ofInt]
  omega

theorem wrap8_add (x y : Int) : wrap8 (x + y) = wrap8 x + wrap8 y := by
  simp only [wrap8_eq_ofInt, BitVec.ofInt_add]

theorem wrap8_toNat (c : Byte) : wrap8 c.toNat = c := by
  rw [wrap8_eq_ofInt, BitVec.ofInt_natCast, BitVec.ofNat_toNat, BitVec.setWidth_eq]

theorem addDelta_eq_add (c : Byte) (d : Int) : addDelta c d = c + wrap8 d := by
  rw [addDelta, wrap8_add, wrap8_toNat]

theorem addDelta_eq_ofInt (c : Byte) (d : Int) : addDelta c d = BitVec.ofInt 8 ((c.toNat : Int) + d) :=
  wrap8_eq_ofInt _

/-- R53: a biased 2-bit field in eight bits. -/
theorem wrap8_diffDelta : ∀ f : BitVec 2, wrap8 (diffDelta f) = f.setWidth 8 - 2#8 := by decide

/-- R7: `wrap8` is the residue modulo 256. -/
theorem toNat_wrap8 (x : Int) : ((wrap8 x).toNat : Int) = x % 256 := by
  rw [wrap8, BitVec.toNat_ofNat]
  omega

/-- Settles O8: `wrap8` is additive and leaves a byte as it is. -/
theorem componentArithmeticIsModulo256 : Obligations.ComponentArithmeticIsModulo256 := by
  unfold Obligations.ComponentArithmeticIsModulo256
  refine ⟨fun x y => ?_, fun c d => ?_, fun c f => ?_, fun c d => ?_⟩
  · rw [wrap8_add, wrap8_toNat, ← wrap8_add]
  · rw [addDelta_eq_add, wrap8_eq_ofInt]
  · rw [addDelta_eq_add, wrap8_diffDelta, add_sub_assoc]
  · rw [addDelta, toNat_wrap8, Int.emod_emod]

/-! ### DIFF -/

theorem diffPixel_eq_ofInt (prev : Pixel) (fr fg fb : BitVec 2) :
    diffPixel prev fr fg fb =
      ⟨BitVec.ofInt 8 ((prev.r.toNat : Int) + ((fr.toNat : Int) - 2)),
       BitVec.ofInt 8 ((prev.g.toNat : Int) + ((fg.toNat : Int) - 2)),
       BitVec.ofInt 8 ((prev.b.toNat : Int) + ((fb.toNat : Int) - 2)), prev.a⟩ := by
  simp only [diffPixel, addDelta_eq_ofInt, diffDelta, Config.diffBias]

/-- Settles O15: the one byte is consumed and the pixel of the three deltas is emitted. -/
theorem diffAddsBiasedDeltas : Obligations.DiffAddsBiasedDeltas := by
  unfold Obligations.DiffAddsBiasedDeltas
  rintro fr fg fb s p rfl
  refine ⟨rfl, fun hroom => ?_⟩
  rw [← diffPixel_eq_ofInt]
  exact State.produce_one_answers (u := s.consume 1) (diffPixel s.prev fr fg fb) rfl hroom

/-! ### LUMA -/

theorem lumaPixel_eq_ofInt (prev : Pixel) (fg : BitVec 6) (frg fbg : BitVec 4) :
    lumaPixel prev fg frg fbg =
      ⟨BitVec.ofInt 8 ((prev.r.toNat : Int) + (((frg.toNat : Int) - 8) + ((fg.toNat : Int) - 32))),
       BitVec.ofInt 8 ((prev.g.toNat : Int) + ((fg.toNat : Int) - 32)),
       BitVec.ofInt 8 ((prev.b.toNat : Int) + (((fbg.toNat : Int) - 8) + ((fg.toNat : Int) - 32))), prev.a⟩ := by
  simp only [lumaPixel, addDelta_eq_ofInt, lumaDiff, lumaDg, Config.lumaRBBias, Config.lumaGBias]

theorem exec_luma_of_fits {s : State} (fg : BitVec 6) (frg fbg : BitVec 4) (hfit : s.pos + 2 ≤ s.stream.length) :
    exec (.luma fg frg fbg) s =
      (((s.latchTag (lumaTag fg)).consume 2).produce (lumaPixel s.prev fg frg fbg) 1).commit :=
  if_pos ((s.fits_iff 2).2 hfit)

theorem exec_luma_of_end {s : State} (fg : BitVec 6) (frg fbg : BitVec 4) (hend : s.stream.length < s.pos + 2) :
    exec (.luma fg frg fbg) s = (s.lumaEnded (lumaTag fg)).commit :=
  if_neg (mt (s.fits_iff 2).1 (Nat.not_le.2 hend))

/-- R103: a LUMA cut short differs from a literal operator cut short in `lit` and `cnt` only. -/
theorem State.cutShort_lumaEnded (s : State) (b0 : Byte) : CutShort s (s.lumaEnded b0) b0 :=
  have h := s.cutShort_literalEnded b0
  { h with pixels := { h.pixels with }, setting := { h.setting with } }

/-- No pixel is emitted, so that only the end of the stream counts against the limits. -/
theorem CutShort.commit_eq {s t : State} {b0 : Byte} (h : CutShort s t b0)
    (hpos : s.stream.length < Config.counterLimit) (hcursor : s.cursor < Config.counterLimit) : t.commit = .next t :=
  t.commit_of_lt (h.pos ▸ hpos) (h.pixels.cursor ▸ hcursor)

/-- R103: the tag byte alone is consumed, and no operand latch has moved. -/
theorem State.lumaEnded_answers {s : State} (b0 : Byte) (hend : s.pos + 1 = s.stream.length) (hroom : s.Room 1 0) :
    ∃ t, (s.lumaEnded b0).commit = .next t ∧ CutShort s t b0 ∧ t.hidden.lit = s.hidden.lit ∧
      t.hidden.cnt = s.hidden.cnt := by
  obtain ⟨hpos, hcursor⟩ := hroom
  have hcut := s.cutShort_lumaEnded b0
  exact ⟨_, hcut.commit_eq (hend ▸ hpos) hcursor, hcut, rfl, rfl⟩

/-- Settles O16: with both bytes there the pixel of the three deltas is emitted once the tag is latched; else the end of
the stream is taken. -/
theorem lumaAddsBiasedDeltas : Obligations.LumaAddsBiasedDeltas := by
  unfold Obligations.LumaAddsBiasedDeltas
  rintro fg frg fbg s p rfl
  refine ⟨rfl, fun hfit hroom => ?_, fun hend hroom => ?_⟩
  · rw [exec_luma_of_fits fg frg fbg hfit, ← lumaPixel_eq_ofInt]
    exact State.produce_one_answers (lumaPixel s.prev fg frg fbg) rfl hroom
  · rw [exec_luma_of_end fg frg fbg (by omega)]
    exact State.lumaEnded_answers _ hend hroom

end Sys2Proof.Machine
end

section
/-! PROOF. A run of emissions of one pixel as emissions one after another (R77, R80), and the operator RUN (R77). -/

namespace Sys2Proof.Machine

/-! ### Emissions one after another -/

/-- The indexes of `m + n` emissions are those of the first `m` and those of the next `n`. -/
theorem State.writes_add_iff {s t : State} {m : Nat} (hcursor : t.cursor = s.cursor + m) (hnpix : t.npix = s.npix)
    (n i : Nat) : s.Writes (m + n) i ↔ s.Writes m i ∨ t.Writes n i := by
  rw [State.Writes, State.Writes, State.Writes, hcursor, hnpix]
  omega

/-- The four bytes of one pixel are no bytes of another (R32, D31). -/
theorem outAddress_ne {i j c d : Nat} (hij : i ≠ j) (hc : c < 4) (hd : d < 4) :
    outAddress i c ≠ outAddress j d := by
  rw [outAddress, outAddress]
  omega

theorem Emits.readPixel_of_not_writes {s t : State} {p : Pixel} {n i : Nat} (h : Emits s t p n)
    (hi : ¬ s.Writes n i) : t.out.readPixel i = s.out.readPixel i := by
  have hbyte (c : Nat) (hc : c < 4) : t.out.readByte (outAddress i c) = s.out.readByte (outAddress i c) :=
    h.others _ fun j d hj hd => outAddress_ne (fun hij => hi (hij ▸ hj)) hc hd
  simp [Memory.readPixel, hbyte]

/-- R80: emissions of one pixel add up, in an image of one size. -/
theorem Emits.trans {s t u : State} {p : Pixel} {m n : Nat} (h : Emits s t p m) (h' : Emits t u p n)
    (hnpix : t.npix = s.npix) : Emits s u p (m + n) where
  prev := h'.prev
  cursor := by rw [h'.cursor, h.cursor, Nat.add_assoc]
  cache k := by
    rw [h'.cache, h.cache]
    split <;> rfl
  written i hi := by
    by_cases hlater : t.Writes n i
    · exact h'.written i hlater
    · rw [h'.readPixel_of_not_writes hlater]
      exact h.written i (((State.writes_add_iff h.cursor hnpix n i).1 hi).resolve_right hlater)
  others a ha := by
    have hsplit (i : Nat) := State.writes_add_iff h.cursor hnpix n i
    calc u.out.readByte a
      _ = t.out.readByte a := h'.others a fun i c hi => ha i c ((hsplit i).2 (.inr hi))
      _ = s.out.readByte a := h.others a fun i c hi => ha i c ((hsplit i).2 (.inl hi))
  trace := by
    rw [h'.trace, h.trace, h.cursor, hnpix, List.range_add]
    simp [Function.comp_def, Nat.add_assoc]

/-- R77: one or more emissions of a pixel are one full `Emit` after another. -/
theorem State.emits_emitTimes (s : State) (p : Pixel) (n : Nat) : Emits s (s.emitTimes p (n + 1)) p (n + 1) := by
  induction n generalizing s with
  | zero => exact s.emits_emit p
  | succ n ih =>
    rw [State.emitTimes_succ, Nat.add_comm (n + 1) 1]
    exact (s.emits_emit p).trans (ih (s.emit p)) rfl

/-- `pend` and `rem` are no pixel state (R21). -/
theorem State.emits_produce (s : State) (p : Pixel) (n : Nat) : Emits s (s.produce p (n + 1)) p (n + 1) :=
  { (s.latchPend p 0#6).emits_emitTimes p n with }

/-- R77(b): the cache does not tell how often a pixel was emitted. -/
theorem Emits.cache_unique {s t u : State} {p : Pixel} {m n : Nat} (h : Emits s t p m) (h' : Emits s u p n) :
    t.cache = u.cache := by
  refine Vector.ext fun i hi => ?_
  have hslot : t.cache.get ⟨i, hi⟩ = u.cache.get ⟨i, hi⟩ := by rw [h.cache, h'.cache]
  exact hslot

/-! ### RUN -/

theorem exec_run (n : BitVec 6) (s : State) :
    exec (.run n) s = ((s.consume 1).produce s.prev (runCount n)).commit := rfl

/-- The state that RUN commits. The counters' limits only decide whether it is answered (V7). -/
theorem completes_run (n : BitVec 6) (s : State) :
    Completes s ((s.consume 1).produce s.prev (runCount n)) 1 s.prev (n.toNat + 1)
      { s.hidden with pend := s.prev, rem := 0#6 } :=
  Completes.of_produce (u := s.consume 1) rfl ((s.consume 1).emits_produce s.prev n.toNat)

theorem emits_of_exec_run {n : BitVec 6} {s t : State} (h : exec (.run n) s = .next t) :
    Emits s t s.prev (n.toNat + 1) := by
  rw [exec_run] at h
  obtain ⟨rfl, -, -⟩ := (State.commit_eq_next_iff _ t).1 h
  exact (completes_run n s).emits

/-- Settles O17: RUN emits `prev` once its tag byte is consumed, one `Emit` after another. -/
theorem runRepeatsThePreviousPixel : Obligations.RunRepeatsThePreviousPixel := by
  unfold Obligations.RunRepeatsThePreviousPixel
  refine fun n s => ⟨rfl, fun hroom => ?_⟩
  have hdone := completes_run n s
  rw [exec_run]
  exact ⟨_, hdone.commit_eq hroom, hdone⟩

/-- Settles O23: what emissions of `prev` leave in the cache does not depend on their number. -/
theorem runLeavesTheCacheOfOneEmit : Obligations.RunLeavesTheCacheOfOneEmit := by
  unfold Obligations.RunLeavesTheCacheOfOneEmit
  exact fun n s t h => (emits_of_exec_run h).cache_unique (s.emits_emit s.prev)

/-- Settles O24: once a pixel has been emitted, `prev` stands in the slot of its own hash already (R27(d)), and RUN
writes no other. -/
theorem laterRunsChangeNoSlot : Obligations.LaterRunsChangeNoSlot := by
  unfold Obligations.LaterRunsChangeNoSlot
  intro n s t hinv hsub hcursor hexec
  have hidle : s.sub ≠ .idle := by simp [hsub]
  exact (emits_of_exec_run hexec).cache_eq (hinv.cache_slotHash_prev hidle hcursor)

end Sys2Proof.Machine
end

section
/-! PROOF. The hash of a pixel in 6 bits (R78, R74(c)), and `Emit` with its frame (R79, R81). -/

namespace Sys2Proof.Machine

/-! ### The hash -/

/-- R78: the sum of `Hash`, on integers. -/
def hashSum (p : Pixel) : Nat := 3 * p.r.toNat + 5 * p.g.toNat + 7 * p.b.toNat + 11 * p.a.toNat

theorem slotHash_val (p : Pixel) : (slotHash p).val = hashSum p % 64 := rfl

/-- R78: every component at 255. -/
theorem hashSum_le (p : Pixel) : hashSum p ≤ 6630 := by
  have hr := p.r.isLt
  have hg := p.g.isLt
  have hb := p.b.isLt
  have ha := p.a.isLt
  rw [hashSum]
  omega

/-- R74(c): the cut to 6 bits goes through the sum and its products to the components. -/
theorem ofNat_hashSum (p : Pixel) : BitVec.ofNat 6 (hashSum p) =
    3#6 * p.r.setWidth 6 + 5#6 * p.g.setWidth 6 + 7#6 * p.b.setWidth 6 + 11#6 * p.a.setWidth 6 := by
  simp only [hashSum, BitVec.ofNat_add, BitVec.ofNat_mul, BitVec.ofNat_toNat]

/-- Settles O9: the slot number is the sum cut to 6 bits, and that cut can be made at each component. -/
theorem hashNeedsSixBits : Obligations.HashNeedsSixBits := by
  unfold Obligations.HashNeedsSixBits
  refine fun p => ⟨slotHash_val p, hashSum_le p, ?_⟩
  rw [← ofNat_hashSum, BitVec.toNat_ofNat, slotHash_val]

/-! ### The frame of `Emit` -/

theorem State.emit_sameSetting (s : State) (p : Pixel) : SameSetting s (s.emit p) := ⟨rfl, rfl, rfl, rfl, rfl⟩

theorem State.emit_sameStatus (s : State) (p : Pixel) : SameStatus s (s.emit p) := ⟨rfl, rfl, rfl⟩

/-- Settles O22: the effects are those of one emission; the registers it does not name are the frame, and each byte is
put into OUT at its place. -/
theorem emitHasFourEffects : Obligations.EmitHasFourEffects := by
  unfold Obligations.EmitHasFourEffects
  exact fun s p => ⟨s.emits_emit p, s.emit_sameSetting p, s.emit_sameStatus p, s.emit_pos p, s.emit_hidden p,
    s.emit_out_wf p⟩

end Sys2Proof.Machine
end

section
/-! PROOF. One edge by sub-state (R93), the cycles in which nothing happens (R95, R97), and the step where the bytes
decode to an instruction (R85, R91). -/

namespace Sys2Proof.Machine

/-! ### One edge by sub-state -/

theorem State.transition_of_hdr {s : State} {i : Inputs} (hrst : i.rst = false) (hsub : s.sub = .hdr) :
    s.transition i = s.receive i s.hdrByte (s.raise .unexpectedEndOfStream 0) := by
  rw [State.transition, hrst, hsub]; rfl

theorem State.transition_of_op {s : State} {i : Inputs} (hrst : i.rst = false) (hsub : s.sub = .op) :
    s.transition i = s.receive i s.opByte (s.finalise Config.strictPixelCount) := by
  rw [State.transition, hrst, hsub]; rfl

theorem State.transition_of_lit {s : State} {i : Inputs} (hrst : i.rst = false) (hsub : s.sub = .lit) :
    s.transition i = s.receive i s.litByte (s.raise .unexpectedEndOfStream s.hidden.opPos) := by
  rw [State.transition, hrst, hsub]; rfl

theorem State.transition_of_luma2 {s : State} {i : Inputs} (hrst : i.rst = false) (hsub : s.sub = .luma2) :
    s.transition i = s.receive i s.lumaSecond (s.raise .unexpectedEndOfStream s.hidden.opPos) := by
  rw [State.transition, hrst, hsub]; rfl

theorem State.transition_of_emit {s : State} {i : Inputs} (hrst : i.rst = false) (hsub : s.sub = .emit) :
    s.transition i = if s.inside && !i.outReady then s else s.emitPend := by
  rw [State.transition, hrst, hsub]; rfl

theorem State.not_busy_iff (s : State) : s.busy = false ↔ s.sub = .idle ∨ s.sub = .done ∨ s.sub = .err := by
  rw [State.busy, State.state]
  cases s.sub <;> decide

/-- R97: outside the busy states only a command moves the block. -/
theorem State.transition_of_not_busy {s : State} {i : Inputs} (hbusy : s.busy = false) (hrst : i.rst = false)
    (hstart : i.start = false) : s.transition i = s := by
  rcases s.not_busy_iff.1 hbusy with h | h | h <;>
  · rw [State.transition, hrst, h, hstart]
    rfl

/-! ### The cycles in which nothing happens -/

/-- Settles O33: the three states are those that are not busy, where neither channel is ready. -/
theorem endedDecodesHold : Obligations.EndedDecodesHold := by
  unfold Obligations.EndedDecodesHold
  intro s hsub
  have hbusy := s.not_busy_iff.2 hsub
  obtain ⟨hready, hemit⟩ := State.not_ready_of_not_busy hbusy
  refine ⟨fun hquiet => ?_, fun i hrst hstart => ⟨State.transition_of_not_busy hbusy hrst hstart, hready, ?_⟩⟩
  · rw [step_of_no_command hquiet, advance_of_not_busy hbusy]
  · exact State.outValid_of_ne_emit hemit

theorem State.receive_of_stall {i : Inputs} (hv : i.inValid = false) (he : i.inEos = false) (s : State)
    (onByte : Byte → State) (onEos : State) : s.receive i onByte onEos = s := by
  rw [State.receive, hv, he]; rfl

theorem SubState.inReady_iff (x : SubState) : x.inReady = true ↔ x = .hdr ∨ x = .op ∨ x = .lit ∨ x = .luma2 := by
  cases x <;> decide

/-- Settles O52: where the block reads, nothing is offered; where it offers a pixel, the sink does not take it. -/
theorem stallsChangeNothing : Obligations.StallsChangeNothing := by
  unfold Obligations.StallsChangeNothing
  refine fun i s hrst => ⟨fun hready hv he => ?_, fun hvalid hout => ?_⟩
  · have hstall := State.receive_of_stall hv he s
    rcases (SubState.inReady_iff _).1 hready with hsub | hsub | hsub | hsub
    · rw [State.transition_of_hdr hrst hsub, hstall]
    · rw [State.transition_of_op hrst hsub, hstall]
    · rw [State.transition_of_lit hrst hsub, hstall]
    · rw [State.transition_of_luma2 hrst hsub, hstall]
  · obtain ⟨hsub, hin⟩ := s.outValid_iff.1 hvalid
    rw [State.transition_of_emit hrst hsub, s.inside_iff.2 hin, hout]
    rfl

/-! ### The step where the bytes decode -/

theorem advance_of_op {s : State} (hsub : s.sub = .op) : advance s = runItem .operator s := by rw [advance, hsub]

/-- R85, R61: `s` stands at a boundary and its unread bytes decode there to `i`. -/
def State.DecodesTo (s : State) (i : Instr) (rest : List Byte) : Prop :=
  (s.sub = .op ∧ decode .operator s.unread = .instr i rest) ∨
    (s.sub = .hdr ∧ s.hidden.cnt = 0#4 ∧ decode .header s.unread = .instr i rest)

theorem State.DecodesTo.advance_eq {s : State} {i : Instr} {rest : List Byte} (h : s.DecodesTo i rest) :
    advance s = exec i s := by
  rcases h with ⟨hsub, hd⟩ | ⟨hsub, hcnt, hd⟩
  · rw [advance_of_op hsub, runItem_of_instr hd]
  · rw [advance_of_headerStart hsub hcnt, runItem_of_instr hd]

theorem State.DecodesTo.busy {s : State} {i : Instr} {rest : List Byte} (h : s.DecodesTo i rest) : s.busy = true := by
  rw [State.busy_iff]
  rcases h with ⟨hsub, -⟩ | ⟨hsub, -, -⟩
  · exact .inr (.inl hsub)
  · exact .inl hsub

/-- Settles O26: the commands to come are no part of where the machine stands, and a busy machine ignores `start`. -/
theorem stepRunsTheDecodedInstruction : Obligations.StepRunsTheDecodedInstruction := by
  unfold Obligations.StepRunsTheDecodedInstruction
  intro s i rest hs
  have hqueue (q : List Command) : (s.queue q).DecodesTo i rest := hs
  refine ⟨fun hquiet => ?_, fun q hq => ?_, fun S q hq => ?_⟩
  · rw [step_of_no_command hquiet, State.DecodesTo.advance_eq hs]
  · rw [step, stepOnce, hq]
    exact (hqueue q).advance_eq
  · rw [step, stepOnce, hq]
    exact (if_pos (hqueue q).busy).trans (hqueue q).advance_eq

end Sys2Proof.Machine
end

section
/-! PROOF. A whole operator as its pixels, each emitted in turn (R79, R90), and the bound on a decode that follows from
their number (R99). -/

namespace Sys2Proof.Machine

/-! ### Emissions in turn -/

/-- R77: a run of emissions is the emission of each copy in turn. -/
theorem State.emitTimes_eq_foldl (s : State) (p : Pixel) (n : Nat) :
    s.emitTimes p n = (List.replicate n p).foldl State.emit s := by
  induction n generalizing s with
  | zero => rfl
  | succ n ih => exact ih (s.emit p)

/-- `Emit` asks neither for the position nor for the latches. -/
theorem State.foldl_emit_latch_consume (s : State) (l : Hidden) (len : Nat) (ps : List Pixel) :
    ps.foldl State.emit ((s.latch l).consume len) = ((ps.foldl State.emit s).latch l).consume len := by
  induction ps generalizing s with
  | nil => rfl
  | cons p ps ih => exact ih (s.emit p)

theorem State.foldl_emit_cursor (s : State) (ps : List Pixel) :
    (ps.foldl State.emit s).cursor = s.cursor + ps.length := by
  induction ps generalizing s with
  | nil => rfl
  | cons p ps ih => rw [List.foldl_cons, ih, State.emit_cursor, List.length_cons]; omega

theorem State.foldl_emit_frame (s : State) (ps : List Pixel) :
    (ps.foldl State.emit s).pos = s.pos ∧ (ps.foldl State.emit s).sub = s.sub ∧
      (ps.foldl State.emit s).stream = s.stream := by
  induction ps generalizing s with
  | nil => exact ⟨rfl, rfl, rfl⟩
  | cons p ps ih => exact ih (s.emit p)

/-! ### A whole operator -/

/-- R90: `t` is `s` with the pixels of `i` emitted in turn and the bytes of `i` consumed. -/
def Performs (i : Instr) (s t : State) : Prop :=
  ∃ l, t = (((pixelsOf s.prev s.cache i).foldl State.emit s).latch l).consume i.length

theorem Performs.of_produce {i : Instr} {s u : State} {p : Pixel} {n : Nat}
    (hpix : pixelsOf s.prev s.cache i = List.replicate n p) (hu : u = (s.latch u.hidden).consume i.length) :
    Performs i s (u.produce p n) := by
  refine ⟨{ u.hidden with pend := p, rem := 0#6 }, ?_⟩
  have hpend : u.latchPend p 0#6 = (s.latch { u.hidden with pend := p, rem := 0#6 }).consume i.length := by
    rw [hu]; rfl
  rw [State.produce, hpend, State.emitTimes_eq_foldl, State.foldl_emit_latch_consume, hpix]

/-- R90: an operator whose bytes are all there. -/
theorem exec_performs {i : Instr} {s : State} (hi : i.position = .operator)
    (hfit : s.pos + i.length ≤ s.stream.length) : ∃ t, Performs i s t ∧ exec i s = t.commit := by
  cases i with
  | header => cases hi
  | rgb r g b => exact ⟨_, .of_produce (n := 1) rfl rfl, exec_rgb_of_fits r g b hfit⟩
  | rgba r g b a => exact ⟨_, .of_produce (n := 1) rfl rfl, exec_rgba_of_fits r g b a hfit⟩
  | index k => exact ⟨_, .of_produce (u := s.consume 1) (n := 1) rfl rfl, rfl⟩
  | diff fr fg fb => exact ⟨_, .of_produce (u := s.consume 1) (n := 1) rfl rfl, rfl⟩
  | luma fg frg fbg => exact ⟨_, .of_produce (n := 1) rfl rfl, exec_luma_of_fits fg frg fbg hfit⟩
  | run n => exact ⟨_, .of_produce (u := s.consume 1) rfl rfl, exec_run n s⟩

theorem instr_length_pos (i : Instr) : 0 < i.length := by
  cases i <;> exact Nat.succ_pos _

theorem pixelsOf_length_pos {i : Instr} (hi : i.position = .operator) (prev : Pixel) (cache : Vector Pixel 64) :
    1 ≤ (pixelsOf prev cache i).length := by
  cases i with
  | header => cases hi
  | run n => simp [pixelsOf, runCount, Config.runBias]
  | rgb | rgba | index | diff | luma => exact le_rfl

/-- R56, R77: RUN with its longest well-formed field is the most. -/
theorem pixelsOf_length_le {i : Instr} (hwf : i.wellFormed = true) (prev : Pixel) (cache : Vector Pixel 64) :
    (pixelsOf prev cache i).length ≤ 62 := by
  cases i with
  | header => exact Nat.zero_le _
  | run n => simpa [pixelsOf, runCount, Config.runBias] using Nat.lt_succ_of_le (of_decide_eq_true hwf)
  | rgb | rgba | index | diff | luma => exact Nat.le_add_left 1 61

/-- Settles O18: an operator that answers has emitted its pixels in turn; the bytes consumed and the latches are no
pixel state. -/
theorem operatorsEmitTheirPixelsInOrder : Obligations.OperatorsEmitTheirPixelsInOrder := by
  unfold Obligations.OperatorsEmitTheirPixelsInOrder
  intro i s t hi hfit h
  obtain ⟨u, ⟨l, rfl⟩, heq⟩ := exec_performs hi hfit
  rw [heq] at h
  obtain ⟨rfl, -, -⟩ := (State.commit_eq_next_iff _ t).1 h
  exact ⟨rfl, rfl, s.foldl_emit_cursor _, rfl, rfl, pixelsOf_length_pos hi _ _, fun hwf => pixelsOf_length_le hwf _ _⟩

/-! ### The bound on a decode -/

/-- R99: the decode of a stream of `n` bytes has ended, with at most 62 pixels for each byte after the header. -/
structure EndsWithin (n : Nat) (t : State) : Prop where
  ended : t.sub = .done ∨ t.sub = .err
  cursor : t.cursor ≤ 62 * (n - 14)
  doneAtEnd : t.sub = .done → t.pos = n

/-- R99: the decode of a stream of `n` bytes stands between two operators, with at most 62 pixels for each byte read
after the header. -/
structure PacedAt (n : Nat) (s : State) : Prop where
  sub : s.sub = .op
  length : s.stream.length = n
  headerRead : 14 ≤ s.pos
  inStream : s.pos ≤ n
  cursor : s.cursor ≤ 62 * (s.pos - 14)

/-- The counters' limit is far from a stream whose largest image stays below it. -/
theorem PacedAt.commit_eq {n : Nat} {s : State} (h : PacedAt n s) (hlimit : 62 * n < Config.counterLimit) :
    s.commit = .next s := by
  have hpos := h.inStream
  have hcursor := h.cursor
  exact s.commit_of_lt (by omega) (by omega)

/-- R99: a well-formed operator consumes a byte at least and emits 62 pixels at most. -/
theorem PacedAt.performs {n : Nat} {s t : State} {i : Instr} (hs : PacedAt n s) (hwf : i.wellFormed = true)
    (hfit : s.pos + i.length ≤ n) (h : Performs i s t) : PacedAt n t ∧ s.pos < t.pos := by
  obtain ⟨l, rfl⟩ := h
  obtain ⟨hsub, hlen, hread, -, hcursor⟩ := hs
  have hpix := pixelsOf_length_le hwf s.prev s.cache
  obtain ⟨hpos, hsub', hstream⟩ := s.foldl_emit_frame (pixelsOf s.prev s.cache i)
  have hcount := s.foldl_emit_cursor (pixelsOf s.prev s.cache i)
  have hbyte := instr_length_pos i
  generalize (pixelsOf s.prev s.cache i).foldl State.emit s = u at hpos hsub' hstream hcount ⊢
  have hpos' : ((u.latch l).consume i.length).pos = s.pos + i.length := by rw [State.consume_pos, ← hpos]; rfl
  have hcursor' : ((u.latch l).consume i.length).cursor = u.cursor := rfl
  refine ⟨⟨hsub'.trans hsub, (congrArg _ hstream).trans hlen, ?_, ?_, ?_⟩, ?_⟩ <;> omega

/-- R87, R103: the end of the stream, at the boundary or inside an operator, ends the decode. -/
theorem PacedAt.takeReject {n : Nat} {s : State} {r : Reject} (hs : PacedAt n s)
    (hlimit : 62 * n < Config.counterLimit) (h : decode .operator s.unread = .rejected r) :
    ∃ t, takeReject r s = .next t ∧ EndsWithin n t := by
  obtain ⟨hsub, hlen, hread, hin, hcursor⟩ := hs
  have hbound : s.cursor ≤ 62 * (n - 14) := by omega
  obtain ⟨rfl, hnil⟩ | ⟨b0, tag, rfl, htag, hop⟩ := decodeOperator_eq_rejected h
  · have hend : s.pos = n := le_antisymm hin (hlen ▸ s.unread_eq_nil_iff.1 hnil)
    exact ⟨{ s with sub := .done }, State.commit_of_lt _ (by omega : s.pos < _) (by omega : s.cursor < _),
      .inl rfl, hbound, fun _ => hend⟩
  · obtain ⟨t, hcut, heq⟩ : ∃ t, CutShort s t b0 ∧ Machine.takeReject (.operatorEnd b0) s = t.commit := by
      simp only [Machine.takeReject, htag]
      cases tag with
      | rgb | rgba => exact ⟨_, s.cutShort_literalEnded b0, rfl⟩
      | luma => exact ⟨_, s.cutShort_lumaEnded b0, rfl⟩
      | index | diff | run => exact absurd rfl hop
    refine ⟨t, heq.trans (hcut.commit_eq (by omega) (by omega)), .inr hcut.sub, ?_, fun hdone => ?_⟩
    · rw [hcut.pixels.cursor]; exact hbound
    · rw [hcut.sub] at hdone; cases hdone

theorem PacedAt.advance {n : Nat} {s : State} (hs : PacedAt n s) (hlimit : 62 * n < Config.counterLimit) :
    ∃ t, advance s = .next t ∧ ((PacedAt n t ∧ s.pos < t.pos) ∨ EndsWithin n t) := by
  rw [advance_of_op hs.sub]
  cases hd : decode .operator s.unread with
  | instr i rest =>
    obtain ⟨hwf, hi, hbytes⟩ := decode_eq_encode hd
    have hlen := s.unread_length
    rw [hbytes, List.length_append, encode_length, hs.length] at hlen
    have hfit : s.pos + i.length ≤ n := by have := hs.inStream; omega
    obtain ⟨t, ht, heq⟩ := exec_performs hi (hs.length.symm ▸ hfit)
    obtain ⟨hpaced, hlt⟩ := hs.performs hwf hfit ht
    exact ⟨t, by rw [runItem_of_instr hd, heq, hpaced.commit_eq hlimit], .inl ⟨hpaced, hlt⟩⟩
  | rejected r =>
    obtain ⟨t, heq, hend⟩ := hs.takeReject hlimit hd
    exact ⟨t, by rw [runItem_of_rejected hd, heq], .inr hend⟩

/-- R97: a decode that has ended stays as it is. -/
theorem advanceFor_of_not_busy {s : State} (h : s.busy = false) (k : Nat) : advanceFor k s = .next s := by
  induction k with
  | zero => rfl
  | succ k ih => rw [advanceFor, advance_of_not_busy h]; exact ih

theorem EndsWithin.advanceFor_eq {n : Nat} {t : State} (h : EndsWithin n t) (k : Nat) : advanceFor k t = .next t :=
  advanceFor_of_not_busy (t.not_busy_iff.2 (.inr h.ended)) k

/-- R99: every step takes a byte at least, and one more sees the end. -/
theorem PacedAt.advanceFor_ends {n k : Nat} {s : State} (hs : PacedAt n s) (hlimit : 62 * n < Config.counterLimit)
    (hk : n - s.pos < k) : ∃ t, advanceFor k s = .next t ∧ EndsWithin n t := by
  induction k generalizing s with
  | zero => omega
  | succ k ih =>
    obtain ⟨t, heq, ⟨hpaced, hlt⟩ | hend⟩ := hs.advance hlimit
    · obtain ⟨u, hu, hend⟩ := ih hpaced (by have := hpaced.inStream; omega)
      exact ⟨u, by rw [advanceFor, heq]; exact hu, hend⟩
    · exact ⟨t, by rw [advanceFor, heq]; exact hend.advanceFor_eq k, hend⟩

/-- HEADER, the first step of a decode, ends it or leads to the first operator. -/
theorem HeaderEffect.ends_or_paced {s t : State} (h : HeaderEffect s t) (hpos : s.pos = 0) (hcursor : s.cursor = 0) :
    t.pos ≤ max 4 s.stream.length ∧ t.cursor = 0 ∧ (PacedAt s.stream.length t ∨ EndsWithin s.stream.length t) := by
  cases h with
  | loaded l h _ hfit =>
    have hp : (((s.latch l).consume 14).loadHeader h).pos = 0 + 14 := congrArg (· + 14) hpos
    refine ⟨by omega, hcursor, .inl ⟨rfl, rfl, by omega, by omega, ?_⟩⟩
    exact hcursor.le.trans (Nat.zero_le _)
  | ended => exact ⟨le_max_right _ _, hcursor, .inr ⟨.inr rfl, hcursor.le.trans (Nat.zero_le _), fun h => by cases h⟩⟩
  | mismatched l =>
    have hp : (((s.latch l).consume 4).raise .formatError 0).pos = 0 + 4 := congrArg (· + 4) hpos
    exact ⟨by omega, hcursor, .inr ⟨.inr rfl, hcursor.le.trans (Nat.zero_le _), fun h => by cases h⟩⟩

/-- Settles O48: HEADER is the first step, and each operator after it takes a byte at least. -/
theorem decodeEndsWithinTheBound : Obligations.DecodeEndsWithinTheBound := by
  unfold Obligations.DecodeEndsWithinTheBound
  intro S s hlimit
  have hfirst : advance (s.present S).perDecodeReset = runItem .header (s.present S).perDecodeReset :=
    advance_of_headerStart rfl rfl
  obtain ⟨t, heff, heq⟩ := runItem_header_eq_commit (s.present S).perDecodeReset
  obtain ⟨hpos, hcursor, hnext⟩ := heff.ends_or_paced rfl rfl
  have hstep : advance (s.present S).perDecodeReset = .next t := by
    rw [State.perDecodeReset_stream, State.present_stream] at hpos
    rw [Config.counterLimit] at hlimit
    rw [hfirst, heq]
    exact t.commit_of_lt (by rw [Config.counterLimit]; omega) (hcursor ▸ by decide)
  have hends : ∃ u, advanceFor S.length t = .next u ∧ EndsWithin S.length u := by
    rcases hnext with hpaced | hend
    · have hread := hpaced.headerRead
      have hin := hpaced.inStream
      rw [State.perDecodeReset_stream, State.present_stream] at hpaced hin
      exact hpaced.advanceFor_ends hlimit (by omega)
    · exact ⟨t, hend.advanceFor_eq _, hend⟩
  obtain ⟨u, hu, hsub, hbound, hdone⟩ := hends
  exact ⟨u, by rw [decodeStream, advanceFor, hstep]; exact hu, hsub, hbound, hdone⟩

end Sys2Proof.Machine
end

section
/-! PROOF. An item carried to its end: the edges it still takes, and its end seen from any edge inside it (R93, R96). -/

namespace Sys2Proof.Machine

/-! ### One edge without a stall -/

theorem State.readyInputs_of_cons {s : State} {b : Byte} {bs : List Byte} (h : s.unread = b :: bs) :
    s.readyInputs = ⟨false, false, true, b, false, true⟩ := by rw [State.readyInputs, h]

theorem State.readyInputs_of_nil {s : State} (h : s.unread = []) :
    s.readyInputs = ⟨false, false, false, 0#8, true, true⟩ := by rw [State.readyInputs, h]

theorem State.receive_ready_of_cons {s : State} {b : Byte} {bs : List Byte} (h : s.unread = b :: bs)
    (onByte : Byte → State) (onEos : State) : s.receive s.readyInputs onByte onEos = onByte b := by
  rw [State.readyInputs_of_cons h]; rfl

theorem State.receive_ready_of_nil {s : State} (h : s.unread = []) (onByte : Byte → State) (onEos : State) :
    s.receive s.readyInputs onByte onEos = onEos := by
  rw [State.readyInputs_of_nil h]; rfl

/-- A source that never waits gives the byte or the end. -/
theorem State.receive_ready_cases {P : State → Prop} {s : State} {onByte : Byte → State} {onEos : State}
    (hbyte : ∀ b, P (onByte b)) (heos : P onEos) : P (s.receive s.readyInputs onByte onEos) := by
  cases h : s.unread with
  | nil => rwa [State.receive_ready_of_nil h]
  | cons b bs => rw [State.receive_ready_of_cons h]; exact hbyte b

theorem State.drive_of_hdr {s : State} (hsub : s.sub = .hdr) :
    s.drive = s.receive s.readyInputs s.hdrByte (s.raise .unexpectedEndOfStream 0) :=
  State.transition_of_hdr s.readyInputs_rst hsub

theorem State.drive_of_op {s : State} (hsub : s.sub = .op) :
    s.drive = s.receive s.readyInputs s.opByte (s.finalise Config.strictPixelCount) :=
  State.transition_of_op s.readyInputs_rst hsub

theorem State.drive_of_lit {s : State} (hsub : s.sub = .lit) :
    s.drive = s.receive s.readyInputs s.litByte (s.raise .unexpectedEndOfStream s.hidden.opPos) :=
  State.transition_of_lit s.readyInputs_rst hsub

theorem State.drive_of_luma2 {s : State} (hsub : s.sub = .luma2) :
    s.drive = s.receive s.readyInputs s.lumaSecond (s.raise .unexpectedEndOfStream s.hidden.opPos) :=
  State.transition_of_luma2 s.readyInputs_rst hsub

theorem State.drive_of_emit {s : State} (hsub : s.sub = .emit) : s.drive = s.emitPend := by
  rw [State.drive, State.transition_of_emit s.readyInputs_rst hsub, s.readyInputs_outReady, Bool.not_true,
    Bool.and_false]
  rfl

/-! ### The edges that are left -/

/-- The edge over, the item is over, or one edge fewer is left. -/
def State.Shortens (s t : State) : Prop := t.atBoundary = true ∨ t.edgesLeft + 1 = s.edgesLeft

/-- Edges that are left of the record when `cnt` stands at `c` (R96, log entry 17). -/
def headerEdges (c : BitVec 4) : Nat := if c = 0#4 then 0 else if c.toNat ≤ 13 then 14 - c.toNat else 16 - c.toNat

theorem State.edgesLeft_of_hdr {s : State} (hsub : s.sub = .hdr) : s.edgesLeft = headerEdges s.hidden.cnt := by
  rw [State.edgesLeft, hsub]; rfl

theorem headerEdges_succ : ∀ c : BitVec 4, c ≠ 0#4 → c ≠ 13#4 → c + 1#4 ≠ 0#4 →
    headerEdges (c + 1#4) + 1 = headerEdges c := by decide

/-- The header's latches count edges too, those that no run reaches included (log entry 17). -/
theorem State.hdrByte_shortens {s : State} (hsub : s.sub = .hdr) (hcnt : s.hidden.cnt ≠ 0#4) (b : Byte) :
    s.Shortens (s.hdrByte b) := by
  unfold State.hdrByte
  dsimp only
  split
  next => exact .inl rfl
  next =>
    split
    next => exact .inl rfl
    next hlast =>
      by_cases hzero : s.hidden.cnt + 1#4 = 0#4
      · exact .inl (by simp [State.atBoundary, hsub, hzero])
      · right
        rw [State.edgesLeft_of_hdr (s := (s.latchHeaderByte b).consume 1) hsub, State.edgesLeft_of_hdr hsub]
        exact headerEdges_succ s.hidden.cnt hcnt hlast hzero

theorem State.litByte_shortens {s : State} (hsub : s.sub = .lit) (b : Byte) : s.Shortens (s.litByte b) := by
  right
  unfold State.litByte
  split
  next hmore =>
    have htotal : ((s.latchOperand b).consume 1).litTotal = s.litTotal := rfl
    have hle : s.litTotal ≤ 4 := by unfold State.litTotal; split <;> omega
    have hcnt : (s.hidden.cnt + 1#4).toNat = s.hidden.cnt.toNat + 1 := BitVec.toNat_add_of_lt (by simp; omega)
    simp only [State.edgesLeft, State.consume_sub, State.consume_hidden, State.latchOperand_sub,
      State.latchOperand_hidden, hsub, htotal, hcnt]
    omega
  next hlast =>
    have hone : s.edgesLeft = 2 := by
      simp only [State.edgesLeft, hsub]
      omega
    rw [hone]
    rfl

theorem State.emitPend_shortens {s : State} (hsub : s.sub = .emit) : s.Shortens s.emitPend := by
  unfold State.emitPend
  split
  next => exact .inl rfl
  next hrem =>
    right
    simp only [State.edgesLeft, State.emit_sub, State.emit_hidden, hsub]
    bv_omega

theorem State.drive_shortens {s : State} (hb : s.atBoundary = false) : s.Shortens s.drive := by
  cases hsub : s.sub with
  | hdr =>
    have hcnt : s.hidden.cnt ≠ 0#4 := by simpa [State.atBoundary, hsub] using hb
    rw [State.drive_of_hdr hsub]
    exact State.receive_ready_cases (s.hdrByte_shortens hsub hcnt) (.inl rfl)
  | lit =>
    rw [State.drive_of_lit hsub]
    exact State.receive_ready_cases (s.litByte_shortens hsub) (.inl rfl)
  | luma2 =>
    rw [State.drive_of_luma2 hsub]
    exact State.receive_ready_cases (fun _ => .inr (by rw [State.edgesLeft.eq_def s, hsub]; rfl)) (.inl rfl)
  | emit => rw [State.drive_of_emit hsub]; exact State.emitPend_shortens hsub
  | idle | op | done | err => simp [State.atBoundary, hsub] at hb

/-! ### The end of an item -/

theorem State.driveToBoundary_of_atBoundary {s : State} (h : s.atBoundary = true) (n : Nat) :
    s.driveToBoundary n = s := by
  cases n with
  | zero => rfl
  | succ n => rw [State.driveToBoundary, if_pos h]

theorem State.finish_of_atBoundary {s : State} (h : s.atBoundary = true) : s.finish = s :=
  State.driveToBoundary_of_atBoundary h _

/-- The end of an item is the same from each of its edges. -/
theorem State.finish_drive {s : State} (h : s.atBoundary = false) : s.drive.finish = s.finish := by
  obtain ⟨n, hn⟩ := Nat.exists_eq_succ_of_ne_zero (State.edgesLeft_pos h).ne'
  have hfinish : s.finish = s.drive.driveToBoundary n := by
    rw [State.finish, hn, State.driveToBoundary, h]
    rfl
  rw [hfinish]
  rcases State.drive_shortens h with hb | hless
  · rw [State.finish_of_atBoundary hb, State.driveToBoundary_of_atBoundary hb]
  · rw [State.finish, show s.drive.edgesLeft = n by omega]

/-- The edges that are left lead to the boundary. -/
theorem State.finish_atBoundary (s : State) : s.finish.atBoundary = true := by
  induction hn : s.edgesLeft using Nat.strong_induction_on generalizing s with
  | _ n ih =>
    cases hb : s.atBoundary with
    | true => rw [State.finish_of_atBoundary hb, hb]
    | false =>
      rw [← State.finish_drive hb]
      rcases State.drive_shortens hb with hb' | hless
      · rw [State.finish_of_atBoundary hb', hb']
      · exact ih _ (by omega) s.drive rfl

/-! ### From one edge of an item to another -/

/-- `n` edges lead from the boundary `s` to `t`, all in one item: its end, from the first edge on, is the end of `t`. -/
structure State.Carries (s : State) (n : Nat) (t : State) : Prop where
  edges : s.driveFor n = t
  finish : s.drive.finish = t.finish

theorem State.driveFor_succ (s : State) (n : Nat) : s.driveFor (n + 1) = (s.driveFor n).drive := by
  induction n generalizing s with
  | zero => rfl
  | succ n ih => exact ih s.drive

theorem State.Carries.first (s : State) : s.Carries 1 s.drive := ⟨rfl, rfl⟩

theorem State.Carries.drive {s t : State} {n : Nat} (h : s.Carries n t) (hb : t.atBoundary = false) :
    s.Carries (n + 1) t.drive :=
  ⟨by rw [State.driveFor_succ, h.edges], by rw [h.finish, State.finish_drive hb]⟩

/-- An outcome is the item at `s` run in `n` edges. -/
def State.RunsIn (s : State) (n : Nat) (o : Host.Outcome State Fault Refusal) : Prop :=
  ∃ t, s.Carries n t ∧ t.atBoundary = true ∧ o = t.commit

theorem State.RunsIn.eq_driveFor {s : State} {n : Nat} {o : Host.Outcome State Fault Refusal} (h : s.RunsIn n o) :
    o = (s.driveFor n).commit := by
  obtain ⟨t, hcarries, -, rfl⟩ := h
  rw [hcarries.edges]

theorem State.RunsIn.eq_finish {s : State} {n : Nat} {o : Host.Outcome State Fault Refusal} (h : s.RunsIn n o) :
    o = s.drive.finish.commit := by
  obtain ⟨t, hcarries, hb, rfl⟩ := h
  rw [hcarries.finish, State.finish_of_atBoundary hb]

end Sys2Proof.Machine
end

section
/-! PROOF. An operator at the step as its edges at the clock (R93, R96), whole or cut short. -/

namespace Sys2Proof.Machine

/-! ### The pixels of an operator, edge by edge -/

theorem State.setSub_self {s : State} {x : SubState} (h : s.sub = x) : { s with sub := x } = s := by
  rw [← h]

/-- S_EMIT, with `r + 1` emissions of `p` to come (R93). -/
def State.offer (u : State) (p : Pixel) (r : BitVec 6) : State := { u.latchPend p r with sub := .emit }

theorem State.offer_drive_zero {u : State} (hu : u.sub = .op) (p : Pixel) :
    (u.offer p 0#6).drive = u.produce p 1 := by
  rw [State.drive_of_emit rfl]
  exact State.setSub_self (s := u.produce p 1) hu

theorem State.offer_drive_succ (u : State) (p : Pixel) {r : BitVec 6} (hr : r ≠ 0#6) :
    (u.offer p r).drive = (u.emit p).offer p (r - 1#6) := by
  rw [State.drive_of_emit rfl]
  exact if_neg hr

/-- R93: one edge for each pixel; `rem` counts down to the last. -/
theorem State.Carries.produce {s u : State} {n : Nat} {p : Pixel} {r : BitVec 6} (hu : u.sub = .op)
    (h : s.Carries n (u.offer p r)) : s.Carries (n + (r.toNat + 1)) (u.produce p (r.toNat + 1)) := by
  have hnext := h.drive rfl
  induction hr : r.toNat generalizing u n r with
  | zero =>
    obtain rfl : r = 0#6 := BitVec.eq_of_toNat_eq hr
    rwa [State.offer_drive_zero hu] at hnext
  | succ k ih =>
    have hne : r ≠ 0#6 := by rintro rfl; cases hr
    rw [State.offer_drive_succ u p hne] at hnext
    have hrest := ih (u := u.emit p) hu hnext (hnext.drive rfl) (by bv_omega)
    rwa [Nat.add_assoc, Nat.add_comm 1] at hrest

/-- An item whose last byte leads to S_EMIT ends with its pixels. -/
theorem State.Carries.runsIn_produce {s u : State} {n : Nat} {p : Pixel} {r : BitVec 6} (hu : u.sub = .op)
    (h : s.Carries n (u.offer p r)) : s.RunsIn (n + (r.toNat + 1)) (u.produce p (r.toNat + 1)).commit :=
  ⟨_, h.produce hu, by simp [State.atBoundary, hu], rfl⟩

/-! ### The operand bytes of a literal operator, edge by edge -/

theorem State.unread_consume_append {s : State} {bs rest : List Byte} (h : s.unread = bs ++ rest) :
    (s.consume bs.length).unread = rest := by
  rw [State.unread_consume, h, List.drop_left]

theorem State.litTotal_le (s : State) : s.litTotal ≤ 4 := by
  unfold State.litTotal
  split <;> omega

/-- A literal operand that is not the last. -/
theorem State.drive_of_operand {t : State} {b : Byte} {bs : List Byte} (hsub : t.sub = .lit)
    (hunread : t.unread = b :: bs) (hmore : t.hidden.cnt.toNat + 1 < t.litTotal) : t.drive = (t.latchOperand b).consume 1 := by
  rw [State.drive_of_lit hsub, State.receive_ready_of_cons hunread, State.litByte, if_pos hmore]

/-- R93: the operand bytes of S_LIT but the last, one edge each. -/
theorem State.Carries.operands {s t : State} {n : Nat} {bs rest : List Byte} (h : s.Carries n t) (hsub : t.sub = .lit)
    (hunread : t.unread = bs ++ rest) (hlen : t.hidden.cnt.toNat + bs.length < t.litTotal) :
    s.Carries (n + bs.length) ((t.latchOperands bs).consume bs.length) := by
  induction bs generalizing t n with
  | nil => rwa [State.latchOperands_nil]
  | cons b bs ih =>
    rw [List.length_cons] at hlen ⊢
    have htotal := t.litTotal_le
    have hcnt : (t.hidden.cnt + 1#4).toNat = t.hidden.cnt.toNat + 1 := BitVec.toNat_add_of_lt (by simp; omega)
    have hnext := h.drive (by rw [State.atBoundary, hsub])
    rw [State.drive_of_operand hsub hunread (by omega)] at hnext
    have hrest := ih hnext hsub (t.unread_consume_append (bs := [b]) hunread) (by
      rw [State.consume_hidden, State.latchOperand_hidden, hcnt]
      change _ < t.litTotal
      omega)
    have hstate : (((t.latchOperand b).consume 1).latchOperands bs).consume bs.length =
        (t.latchOperands (b :: bs)).consume (bs.length + 1) := by
      rw [State.latchOperands_cons t b bs (by omega), Nat.add_comm bs.length, State.consume, State.consume]
      simp only [State.latchOperands_pos, State.latchOperand_pos, Nat.add_assoc]
      rfl
    rwa [hstate, Nat.add_assoc, Nat.add_comm 1] at hrest

/-! ### What a tag byte leads to -/

/-- S_LIT after the tag byte `b0` (R93). -/
def State.enterLit (s : State) (b0 : Byte) : State := { ((s.latchTag b0).clearCnt).consume 1 with sub := .lit }

/-- S_LUMA2 after the tag byte `b0` (R93). -/
def State.enterLuma (s : State) (b0 : Byte) : State := { (s.latchTag b0).consume 1 with sub := .luma2 }

theorem State.opByte_of_rgb {b0 : Byte} (h : classify b0 = some .rgb) (s : State) : s.opByte b0 = s.enterLit b0 := by
  rw [State.opByte, h]; rfl

theorem State.opByte_of_rgba {b0 : Byte} (h : classify b0 = some .rgba) (s : State) : s.opByte b0 = s.enterLit b0 := by
  rw [State.opByte, h]; rfl

theorem State.opByte_of_luma {b0 : Byte} (h : classify b0 = some .luma) (s : State) : s.opByte b0 = s.enterLuma b0 := by
  rw [State.opByte, h]; rfl

theorem State.opByte_index (s : State) (k : BitVec 6) :
    s.opByte (indexTag k) = (s.consume 1).offer (s.cache.get (slotOf k)) 0#6 := by
  obtain ⟨hc, hk⟩ := classify_indexTag k
  rw [State.opByte, hc, hk]; rfl

theorem State.opByte_diff (s : State) (fr fg fb : BitVec 2) :
    s.opByte (diffTag fr fg fb) = (s.consume 1).offer (diffPixel s.prev fr fg fb) 0#6 := by
  obtain ⟨hc, hr, hg, hb⟩ := classify_diffTag fr fg fb
  rw [State.opByte, hc, hr, hg, hb]; rfl

theorem State.opByte_run (s : State) {n : BitVec 6} (hn : n.toNat ≤ 61) :
    s.opByte (runTag n) = (s.consume 1).offer s.prev n := by
  rw [State.opByte, classify_runTag n hn, runTag_field]; rfl

/-- The first edge of an operator takes its tag byte. -/
theorem State.Carries.tag {s : State} {b0 : Byte} {bs : List Byte} (hsub : s.sub = .op)
    (hunread : s.unread = b0 :: bs) : s.Carries 1 (s.opByte b0) := by
  have h := State.Carries.first s
  rwa [State.drive_of_op hsub, State.receive_ready_of_cons hunread] at h

/-! ### RGB and RGBA -/

/-- The pixel of a literal operator whose last operand is `b` (R69, R70, R93). -/
def State.literalPixel (t : State) (b : Byte) : Pixel :=
  if t.hidden.b0 = 0xFF#8 then ⟨t.hidden.lit[0], t.hidden.lit[1], t.hidden.lit[2], b⟩
  else rgbPixel t.prev t.hidden.lit[0] t.hidden.lit[1] b

theorem State.drive_of_lastOperand {t : State} {b : Byte} {bs : List Byte} (hsub : t.sub = .lit)
    (hunread : t.unread = b :: bs) (hlast : t.hidden.cnt.toNat + 1 = t.litTotal) :
    t.drive = (t.consume 1).offer (t.literalPixel b) 0#6 := by
  rw [State.drive_of_lit hsub, State.receive_ready_of_cons hunread, State.litByte, if_neg hlast.not_lt]
  rfl

theorem State.unread_tail {s : State} {b0 : Byte} {bs : List Byte} (h : s.unread = b0 :: bs) :
    (s.consume 1).unread = bs := State.unread_consume_append (bs := [b0]) h

/-- R103: every byte that was left, where `n` is the number of all bytes. -/
theorem State.endOfStream_of_length {s : State} {n : Nat} (h : n = s.stream.length) (q : Nat) :
    s.endOfStream q = State.raise { s with pos := n } .unexpectedEndOfStream q := by
  rw [h]; rfl

theorem State.length_of_unread_cons {s : State} {b0 : Byte} {bs : List Byte} (h : s.unread = b0 :: bs) :
    s.pos + 1 + bs.length = s.stream.length := by
  have hlen := s.unread_length
  rw [h, List.length_cons] at hlen
  omega

section
variable {s : State} {b0 : Byte} (hsub : s.sub = .op) (htag : s.opByte b0 = s.enterLit b0)
include hsub htag

/-- The tag byte and all operands but the last. -/
theorem State.Carries.literal {bs rest : List Byte} (hunread : s.unread = b0 :: (bs ++ rest))
    (hlen : bs.length < (s.enterLit b0).litTotal) :
    s.Carries (1 + bs.length) (((s.enterLit b0).latchOperands bs).consume bs.length) := by
  have h := State.Carries.tag hsub hunread
  rw [htag] at h
  exact h.operands rfl (State.unread_tail hunread) (by simpa [State.enterLit] using hlen)

/-- All operands there: the last one leads to S_EMIT. -/
theorem State.RunsIn.literal {bs rest : List Byte} {b : Byte} (hunread : s.unread = b0 :: (bs ++ b :: rest))
    (hlen : bs.length + 1 = (s.enterLit b0).litTotal) :
    s.RunsIn (bs.length + 3)
      ((((((((s.latchTag b0).clearCnt).consume 1).latchOperands bs).consume bs.length).consume 1)).produce
        (((s.enterLit b0).latchOperands bs).literalPixel b) 1).commit := by
  have hcnt : (0#4 + BitVec.ofNat 4 bs.length).toNat = bs.length := by
    have := (s.enterLit b0).litTotal_le
    rw [BitVec.zero_add, BitVec.toNat_ofNat]
    omega
  have hlast := State.drive_of_lastOperand (t := ((s.enterLit b0).latchOperands bs).consume bs.length) rfl
    (State.unread_consume_append (State.unread_tail hunread)) ((congrArg (· + 1) hcnt).trans hlen)
  have h := (State.Carries.literal hsub htag hunread (by omega)).drive rfl
  rw [hlast, Nat.add_comm 1] at h
  exact State.Carries.runsIn_produce hsub (r := 0#6) h

/-- R103: the stream ends before the last operand. -/
theorem State.RunsIn.literalEnded {bs : List Byte} (hunread : s.unread = b0 :: bs)
    (hlen : bs.length < (s.enterLit b0).litTotal) : s.RunsIn (1 + bs.length + 1) (s.literalEnded b0).commit := by
  have hrest : s.stream.drop (s.pos + 1) = bs := State.unread_tail hunread
  have hnil : (((s.enterLit b0).latchOperands bs).consume bs.length).unread = [] :=
    State.unread_consume_append (s := s.consume 1) (by rw [State.unread_tail hunread, List.append_nil])
  have h := (State.Carries.literal (rest := []) hsub htag (by rwa [List.append_nil]) hlen).drive rfl
  rw [State.drive_of_lit rfl, State.receive_ready_of_nil hnil] at h
  refine ⟨_, h, rfl, ?_⟩
  rw [State.literalEnded, hrest, State.endOfStream_of_length (s := ((s.latchTag b0).clearCnt).latchOperands bs)
    (State.length_of_unread_cons hunread)]
  rfl

end

theorem State.literalPixel_rgb (s : State) (r g b : Byte) :
    ((s.enterLit 0xFE#8).latchOperands [r, g]).literalPixel b = rgbPixel s.prev r g b := by
  simp [State.literalPixel, State.enterLit, putBytes, getElem_putByte]

theorem State.literalPixel_rgba (s : State) (r g b a : Byte) :
    ((s.enterLit 0xFF#8).latchOperands [r, g, b]).literalPixel a = ⟨r, g, b, a⟩ := by
  simp [State.literalPixel, State.enterLit, putBytes, getElem_putByte]

/-! ### LUMA -/

theorem State.unread_enterLuma (s : State) {b0 : Byte} {bs : List Byte} (h : s.unread = b0 :: bs) :
    (s.enterLuma b0).unread = bs := State.unread_tail h

theorem State.RunsIn.luma {s : State} {fg : BitVec 6} {frg fbg : BitVec 4} {rest : List Byte} (hsub : s.sub = .op)
    (hunread : s.unread = lumaTag fg :: lumaByte frg fbg :: rest) :
    s.RunsIn 3 (((s.latchTag (lumaTag fg)).consume 2).produce (lumaPixel s.prev fg frg fbg) 1).commit := by
  obtain ⟨hc, hfg⟩ := classify_lumaTag fg
  obtain ⟨hfrg, hfbg⟩ := lumaByte_fields frg fbg
  have h := State.Carries.tag hsub hunread
  rw [State.opByte_of_luma hc] at h
  have hlast : (s.enterLuma (lumaTag fg)).drive =
      ((s.latchTag (lumaTag fg)).consume 2).offer (lumaPixel s.prev fg frg fbg) 0#6 := by
    rw [State.drive_of_luma2 rfl, State.receive_ready_of_cons (s.unread_enterLuma hunread), State.lumaSecond, hfrg,
      hfbg, State.enterLuma]
    simp only [State.consume_hidden, State.latchTag_hidden, hfg]
    rfl
  have hnext := h.drive rfl
  rw [hlast] at hnext
  exact State.Carries.runsIn_produce hsub (r := 0#6) hnext

/-- R103: the stream ends after the tag byte. -/
theorem State.RunsIn.lumaEnded {s : State} {b0 : Byte} (hsub : s.sub = .op) (hc : classify b0 = some .luma)
    (hunread : s.unread = [b0]) : s.RunsIn 2 (s.lumaEnded b0).commit := by
  have h := State.Carries.tag hsub hunread
  rw [State.opByte_of_luma hc] at h
  have hnext := h.drive rfl
  rw [State.drive_of_luma2 rfl, State.receive_ready_of_nil (s.unread_enterLuma hunread)] at hnext
  refine ⟨_, hnext, rfl, ?_⟩
  rw [State.lumaEnded, State.endOfStream_of_length (s := s.latchTag b0) (State.length_of_unread_cons hunread)]
  rfl

/-! ### An operator at the step -/

/-- R94, R96: a whole operator in its number of edges. -/
theorem exec_operator_runsIn {s : State} {i : Instr} {rest : List Byte} (hsub : s.sub = .op)
    (hd : decode .operator s.unread = .instr i rest) : s.RunsIn (edgesOf i) (exec i s) := by
  obtain ⟨hwf, hi, hunread⟩ := decode_eq_encode hd
  have hlen := congrArg List.length hunread
  rw [s.unread_length, List.length_append, encode_length] at hlen
  cases i with
  | header => cases hi
  | rgb r g b =>
    rw [exec_rgb_of_fits r g b (by rw [Instr.length] at hlen; omega)]
    have h := State.RunsIn.literal (bs := [r, g]) hsub (State.opByte_of_rgb classify_rgbTag s) hunread rfl
    rwa [State.literalPixel_rgb] at h
  | rgba r g b a =>
    rw [exec_rgba_of_fits r g b a (by rw [Instr.length] at hlen; omega)]
    have h := State.RunsIn.literal (bs := [r, g, b]) hsub (State.opByte_of_rgba classify_rgbaTag s) hunread rfl
    rwa [State.literalPixel_rgba] at h
  | index k =>
    have h := State.Carries.tag hsub hunread
    rw [State.opByte_index] at h
    exact h.runsIn_produce (u := s.consume 1) hsub
  | diff fr fg fb =>
    have h := State.Carries.tag hsub hunread
    rw [State.opByte_diff] at h
    exact h.runsIn_produce (u := s.consume 1) hsub
  | luma fg frg fbg =>
    rw [exec_luma_of_fits fg frg fbg (by rw [Instr.length] at hlen; omega)]
    exact State.RunsIn.luma hsub hunread
  | run n =>
    have h := State.Carries.tag hsub hunread
    rw [State.opByte_run s (of_decide_eq_true hwf)] at h
    exact h.runsIn_produce (u := s.consume 1) hsub

/-- R85, R87, R103: whatever stands at an operator boundary, the step is its edges. -/
theorem runItem_operator_runsIn {s : State} (hsub : s.sub = .op) : ∃ n, s.RunsIn n (runItem .operator s) := by
  cases hd : decode .operator s.unread with
  | instr i rest => exact ⟨_, runItem_of_instr hd ▸ exec_operator_runsIn hsub hd⟩
  | rejected r =>
    rw [runItem_of_rejected hd]
    cases hunread : s.unread with
    | nil =>
      rw [hunread] at hd
      cases hd
      have h := State.Carries.first s
      rw [State.drive_of_op hsub, State.receive_ready_of_nil hunread] at h
      exact ⟨1, _, h, rfl, rfl⟩
    | cons b0 more =>
      obtain ⟨tag, hc⟩ := Option.ne_none_iff_exists'.1 (classify_ne_none b0)
      rw [hunread] at hd
      obtain ⟨hlen, rfl⟩ := (decodeOperator_cons_eq_rejected_iff hc).1 hd
      simp only [takeReject, hc]
      cases tag with
      | rgb =>
        obtain rfl := eq_of_classify_rgb b0 hc
        exact ⟨_, State.RunsIn.literalEnded hsub (State.opByte_of_rgb hc s) hunread hlen⟩
      | rgba =>
        obtain rfl := eq_of_classify_rgba b0 hc
        exact ⟨_, State.RunsIn.literalEnded hsub (State.opByte_of_rgba hc s) hunread hlen⟩
      | luma =>
        obtain rfl := List.length_eq_zero_iff.1 (Nat.lt_one_iff.1 hlen)
        exact ⟨2, State.RunsIn.lumaEnded hsub hc hunread⟩
      | index | diff | run => cases hlen

end Sys2Proof.Machine
end

section
/-! PROOF. HEADER at the step as its edges at the clock (R93, R96), and each clock edge as an edge of the item the step
runs (R94, R95). -/

namespace Sys2Proof.Machine

/-! ### The bytes of the record, edge by edge -/

theorem State.latchHeaderBytes_concat {s : State} {bs : List Byte} (b : Byte)
    (hlen : s.hidden.cnt.toNat + bs.length < 15) :
    s.latchHeaderBytes (bs ++ [b]) = (s.latchHeaderBytes bs).latchHeaderByte b := by
  induction bs generalizing s with
  | nil =>
    rw [List.length_nil] at hlen
    rw [List.nil_append, State.latchHeaderBytes_cons s b [] (by omega), State.latchHeaderBytes_nil,
      State.latchHeaderBytes_nil]
  | cons x bs ih =>
    rw [List.length_cons] at hlen
    have hcnt : (s.hidden.cnt + 1#4).toNat = s.hidden.cnt.toNat + 1 := BitVec.toNat_add_of_lt (by simp; omega)
    rw [List.cons_append, State.latchHeaderBytes_cons s x _ (by omega), State.latchHeaderBytes_cons s x _ (by omega),
      ih (by rw [State.latchHeaderByte_hidden, hcnt]; omega)]

/-- A byte that neither fails the magic nor completes the record (R93). -/
theorem State.drive_of_headerByte {t : State} {b : Byte} {bs : List Byte} (hsub : t.sub = .hdr)
    (hunread : t.unread = b :: bs)
    (hmagic : t.hidden.cnt = 3#4 → beWord t.hidden.hbuf[0] t.hidden.hbuf[1] t.hidden.hbuf[2] b = Config.magic)
    (hmore : t.hidden.cnt ≠ 13#4) : t.drive = (t.latchHeaderByte b).consume 1 := by
  rw [State.drive_of_hdr hsub, State.receive_ready_of_cons hunread, State.hdrByte, if_neg hmore]
  exact if_neg fun ⟨hthree, hbad⟩ => hbad (hmagic hthree)

/-- R62: the fourth byte makes a word other than the magic. -/
theorem State.drive_of_wrongMagic {t : State} {b : Byte} {bs : List Byte} (hsub : t.sub = .hdr)
    (hunread : t.unread = b :: bs) (hthree : t.hidden.cnt = 3#4)
    (hbad : beWord t.hidden.hbuf[0] t.hidden.hbuf[1] t.hidden.hbuf[2] b ≠ Config.magic) :
    t.drive = (t.consume 1).raise .formatError 0 := by
  rw [State.drive_of_hdr hsub, State.receive_ready_of_cons hunread, State.hdrByte]
  exact if_pos ⟨hthree, hbad⟩

/-- R61: the fourteenth byte. -/
theorem State.drive_of_lastHeaderByte {t : State} {b : Byte} {bs : List Byte} (hsub : t.sub = .hdr)
    (hunread : t.unread = b :: bs) (hlast : t.hidden.cnt = 13#4) :
    t.drive = ((t.latchLastHeaderByte b).consume 1).loadHeader (headerOf (t.latchLastHeaderByte b).hidden.hbuf) := by
  have hthree : t.hidden.cnt ≠ 3#4 := by rw [hlast]; decide
  rw [State.drive_of_hdr hsub, State.receive_ready_of_cons hunread, State.hdrByte, if_pos hlast]
  exact if_neg fun ⟨h, _⟩ => hthree h

section
variable {s : State} (hcnt : s.hidden.cnt = 0#4)
include hcnt

/-- From the start of the record `cnt` counts its bytes. -/
theorem State.latchHeaderBytes_cnt {bs : List Byte} (hlen : bs.length ≤ 13) :
    (s.latchHeaderBytes bs).hidden.cnt.toNat = bs.length := by
  rw [State.latchHeaderBytes_hidden, hcnt, BitVec.zero_add, BitVec.toNat_ofNat]
  omega

theorem State.latchHeaderBytes_cnt_eq_iff {bs : List Byte} {c : BitVec 4} (hlen : bs.length ≤ 13) :
    (s.latchHeaderBytes bs).hidden.cnt = c ↔ bs.length = c.toNat := by
  rw [← BitVec.toNat_inj, State.latchHeaderBytes_cnt hcnt hlen]

/-- The word that is judged with the fourth byte (R62). -/
theorem State.magicWord_latchHeaderBytes (m0 m1 m2 m3 : Byte) :
    beWord (s.latchHeaderBytes [m0, m1, m2]).hidden.hbuf[0] (s.latchHeaderBytes [m0, m1, m2]).hidden.hbuf[1]
      (s.latchHeaderBytes [m0, m1, m2]).hidden.hbuf[2] m3 = beWord m0 m1 m2 m3 := by
  simp [putBytes, getElem_putByte, hcnt]

/-- The registers HEADER loads are the words of the record (R61). -/
theorem State.headerOf_latched (m w h : BitVec 32) (c cs : Byte) :
    headerOf ((s.latchHeaderBytes ((encode (.header m w h c cs)).take 13)).latchLastHeaderByte cs).hidden.hbuf =
      ⟨m, w, h, c, cs⟩ := by
  simp [headerOf, encode, beBytes, putBytes, getElem_putByte, hcnt]

/-- The fourth byte is judged with the three before it (R62). -/
theorem State.fourthByte_judged {bs : List Byte} {b : Byte} (hlen : bs.length ≤ 13)
    (hmagic : bs.length = 3 → bs ++ [b] = beBytes Config.magic)
    (hthree : (s.latchHeaderBytes bs).hidden.cnt = 3#4) :
    beWord (s.latchHeaderBytes bs).hidden.hbuf[0] (s.latchHeaderBytes bs).hidden.hbuf[1]
      (s.latchHeaderBytes bs).hidden.hbuf[2] b = Config.magic := by
  have hlength := (State.latchHeaderBytes_cnt_eq_iff hcnt hlen).1 hthree
  obtain ⟨m0, m1, m2, rfl⟩ := List.length_eq_three.1 hlength
  rw [State.magicWord_latchHeaderBytes hcnt]
  exact beWord_eq_iff.2 (hmagic rfl)

/-- In the middle of the record. -/
theorem State.not_atBoundary_of_headerBytes (hsub : s.sub = .hdr) {bs : List Byte} (hne : bs ≠ [])
    (hlen : bs.length ≤ 13) : ((s.latchHeaderBytes bs).consume bs.length).atBoundary = false := by
  have hzero : (s.latchHeaderBytes bs).hidden.cnt ≠ 0#4 := by
    rw [Ne, State.latchHeaderBytes_cnt_eq_iff hcnt hlen]
    simpa using hne
  rw [State.atBoundary, State.consume_sub, State.latchHeaderBytes_sub, hsub]
  exact decide_eq_false hzero

/-- Some bytes of the record, one edge each, when nothing is wrong in those of the magic; and one edge more. -/
theorem State.Carries.headerBytes (hsub : s.sub = .hdr) {bs rest : List Byte} (hunread : s.unread = bs ++ rest)
    (hlen : bs.length ≤ 13) (hmagic : 4 ≤ bs.length → bs.take 4 = beBytes Config.magic) :
    s.Carries (bs.length + 1) ((s.latchHeaderBytes bs).consume bs.length).drive := by
  induction bs using List.reverseRecOn generalizing rest with
  | nil => rw [State.latchHeaderBytes_nil]; exact .first s
  | append_singleton bs b ih =>
    have hinside := State.not_atBoundary_of_headerBytes hcnt hsub (List.append_ne_nil_of_right_ne_nil bs
      (List.cons_ne_nil b [])) hlen
    rw [List.length_append, List.length_singleton] at hlen hmagic hinside ⊢
    rw [List.append_assoc, List.singleton_append] at hunread
    have hmagicRead (hfour : 4 ≤ bs.length) : bs.take 4 = beBytes Config.magic := by
      rw [← hmagic (by omega), List.take_append_of_le_length hfour]
    have hjudged (hthree : bs.length = 3) : bs ++ [b] = beBytes Config.magic := by
      rw [← hmagic (by omega), List.take_of_length_le (by simp [hthree])]
    have hmore : (s.latchHeaderBytes bs).hidden.cnt ≠ 13#4 := by
      rw [Ne, State.latchHeaderBytes_cnt_eq_iff hcnt (by omega)]
      exact (Nat.lt_of_succ_le hlen).ne
    have hedge : ((s.latchHeaderBytes bs).consume bs.length).drive =
        (s.latchHeaderBytes (bs ++ [b])).consume (bs.length + 1) := by
      rw [State.latchHeaderBytes_concat b (by rw [hcnt]; simp; omega)]
      exact State.drive_of_headerByte hsub (State.unread_consume_append (s := s) hunread)
        (State.fourthByte_judged hcnt (by omega) hjudged) hmore
    exact (hedge ▸ ih hunread (by omega) hmagicRead).drive hinside

/-! ### HEADER at the step -/

/-- R61: the whole record. -/
theorem exec_header_runsIn (hsub : s.sub = .hdr) {i : Instr} {rest : List Byte}
    (hd : decode .header s.unread = .instr i rest) : s.RunsIn (edgesOf i) (exec i s) := by
  obtain ⟨m, w, h, c, cs, rfl⟩ := decodeHeader_eq_instr hd
  obtain ⟨hwf, -, hunread⟩ := decode_eq_encode hd
  obtain rfl : m = Config.magic := of_decide_eq_true hwf
  have hfit : s.pos + 14 ≤ s.stream.length := by
    have hlen := congrArg List.length hunread
    rw [s.unread_length, List.length_append, encode_length, Instr.length] at hlen
    omega
  generalize hbs : (encode (.header Config.magic w h c cs)).take 13 = bs
  have hsplit : s.unread = bs ++ cs :: rest := by rw [← hbs]; exact hunread
  have hlen : bs.length = 13 := by rw [← hbs]; rfl
  have hmagic : bs.take 4 = beBytes Config.magic := by rw [← hbs]; rfl
  have hedge := State.drive_of_lastHeaderByte (t := (s.latchHeaderBytes bs).consume bs.length) hsub
    (State.unread_consume_append (s := s) hsplit) ((State.latchHeaderBytes_cnt_eq_iff hcnt hlen.le).2 hlen)
  have hlast := State.Carries.headerBytes hcnt hsub hsplit hlen.le fun _ => hmagic
  rw [hedge, hlen] at hlast
  refine ⟨_, hlast, rfl, ?_⟩
  have hregs := State.headerOf_latched hcnt Config.magic w h c cs
  rw [hbs] at hregs
  rw [exec, execHeader, if_pos ((s.fits_iff 4).2 (by omega)), if_pos rfl, if_pos ((s.fits_iff 14).2 hfit), ← hregs]
  dsimp only
  rw [hbs]
  rfl

/-- R62: another magic. -/
theorem State.RunsIn.magicMismatch (hsub : s.sub = .hdr) {m0 m1 m2 m3 : Byte} {more : List Byte}
    (hunread : s.unread = m0 :: m1 :: m2 :: m3 :: more) (hbad : beWord m0 m1 m2 m3 ≠ Config.magic) :
    s.RunsIn 4 (s.magicMismatch (beWord m0 m1 m2 m3)).commit := by
  have hedge := State.drive_of_wrongMagic (t := (s.latchHeaderBytes [m0, m1, m2]).consume 3) hsub
    (State.unread_consume_append (s := s) (bs := [m0, m1, m2]) hunread)
    ((State.latchHeaderBytes_cnt_eq_iff hcnt (by simp)).2 rfl)
    (by rw [State.consume_hidden, State.magicWord_latchHeaderBytes hcnt]; exact hbad)
  have hlast := State.Carries.headerBytes hcnt hsub (bs := [m0, m1, m2]) hunread (by simp) (by simp)
  have hjudged : [beByte (beWord m0 m1 m2 m3) 0, beByte (beWord m0 m1 m2 m3) 1, beByte (beWord m0 m1 m2 m3) 2] =
      [m0, m1, m2] := congrArg (List.take 3) (beBytes_beWord m0 m1 m2 m3)
  refine ⟨_, hedge ▸ hlast, rfl, ?_⟩
  rw [State.magicMismatch, hjudged]
  rfl

/-- R63, R103: the stream ends inside the record, with nothing wrong in the bytes of the magic. -/
theorem State.RunsIn.headerEnded (hsub : s.sub = .hdr) (hpos : s.pos ≤ s.stream.length) (hlen : s.unread.length ≤ 13)
    (hmagic : 4 ≤ s.unread.length → s.unread.take 4 = beBytes Config.magic) :
    s.RunsIn (s.unread.length + 1) s.headerEnded.commit := by
  have hend : s.pos + s.unread.length = s.stream.length := by rw [s.unread_length]; omega
  have hresult : s.headerEnded =
      ((s.latchHeaderBytes s.unread).consume s.unread.length).raise .unexpectedEndOfStream 0 := by
    rw [State.headerEnded, State.endOfStream_of_length (s := s.latchHeaderBytes s.unread) hend]
    rfl
  have hnil : ((s.latchHeaderBytes s.unread).consume s.unread.length).unread = [] :=
    State.unread_consume_append (s := s) (List.append_nil _).symm
  have hlast := State.Carries.headerBytes hcnt hsub (List.append_nil _).symm hlen hmagic
  rw [State.drive_of_hdr (s := (s.latchHeaderBytes s.unread).consume _) hsub, State.receive_ready_of_nil hnil] at hlast
  exact ⟨_, hlast, rfl, congrArg State.commit hresult⟩

end

theorem decodeHeader_rejected_cases {bs : List Byte} {r : Reject} (h : decodeHeader bs = .rejected r) :
    (r = .headerEnd ∧ bs.length ≤ 13 ∧ (4 ≤ bs.length → bs.take 4 = beBytes Config.magic)) ∨
      (r = .badMagic ∧ ∃ m0 m1 m2 m3 more, bs = m0 :: m1 :: m2 :: m3 :: more ∧ beWord m0 m1 m2 m3 ≠ Config.magic) := by
  unfold decodeHeader at h
  split at h
  next m0 m1 m2 m3 more =>
    split at h
    next hmagic =>
      split at h <;> cases h
      next hshort =>
        refine .inl ⟨rfl, ?_, fun _ => beWord_eq_iff.1 hmagic⟩
        match more with
        | [] | [_] | [_, _] | [_, _, _] | [_, _, _, _] | [_, _, _, _, _] | [_, _, _, _, _, _] | [_, _, _, _, _, _, _]
        | [_, _, _, _, _, _, _, _] | [_, _, _, _, _, _, _, _, _] => simp
        | _ :: _ :: _ :: _ :: _ :: _ :: _ :: _ :: _ :: _ :: _ => exact absurd rfl (hshort _ _ _ _ _ _ _ _ _ _ _)
    next hbad =>
      cases h
      exact .inr ⟨rfl, m0, m1, m2, m3, more, rfl, hbad⟩
  next hshort =>
    cases h
    have hlen : bs.length ≤ 3 := by
      match bs with
      | [] | [_] | [_, _] | [_, _, _] => simp
      | _ :: _ :: _ :: _ :: _ => exact absurd rfl (hshort _ _ _ _ _)
    exact .inl ⟨rfl, by omega, fun hfour => by omega⟩

/-- R61 to R63: whatever stands at the start of the stream, the step is its edges. -/
theorem runItem_header_runsIn {s : State} (hsub : s.sub = .hdr) (hcnt : s.hidden.cnt = 0#4)
    (hpos : s.pos ≤ s.stream.length) : ∃ n, s.RunsIn n (runItem .header s) := by
  cases hd : decode .header s.unread with
  | instr i rest => exact ⟨_, runItem_of_instr hd ▸ exec_header_runsIn hcnt hsub hd⟩
  | rejected r =>
    rw [runItem_of_rejected hd]
    obtain ⟨rfl, hlen, hmagic⟩ | ⟨rfl, m0, m1, m2, m3, more, hunread, hbad⟩ := decodeHeader_rejected_cases hd
    · exact ⟨_, State.RunsIn.headerEnded hcnt hsub hpos hlen hmagic⟩
    · simp only [takeReject, hunread]
      exact ⟨4, State.RunsIn.magicMismatch hcnt hsub hunread hbad⟩

/-! ### The step and the clock -/

/-- Settles O50: a decoded item is its edges, from one latch to the next. -/
theorem operatorsTakeTheirCycles : Obligations.OperatorsTakeTheirCycles := by
  unfold Obligations.OperatorsTakeTheirCycles
  rintro s i rest (⟨hsub, hd⟩ | ⟨hsub, hcnt, hd⟩)
  · exact (exec_operator_runsIn hsub hd).eq_driveFor
  · exact (exec_header_runsIn hcnt hsub hd).eq_driveFor

/-- R94: the step of a busy machine is the edges of its item, the first one and all that are left. -/
theorem advance_of_busy {s : State} (hbusy : s.busy = true) (hpos : s.pos ≤ s.stream.length) :
    advance s = s.drive.finish.commit := by
  cases hb : s.atBoundary with
  | false => rw [advance_of_midItem hb, State.finish_drive hb]
  | true =>
    rcases State.runs_of_busy_atBoundary hbusy hb with ⟨hsub, hcnt⟩ | hsub
    · obtain ⟨n, hn⟩ := runItem_header_runsIn hsub hcnt hpos
      rw [advance_of_headerStart hsub hcnt, hn.eq_finish]
    · obtain ⟨n, hn⟩ := runItem_operator_runsIn hsub
      rw [advance_of_op hsub, hn.eq_finish]

/-- R39, R95: what an obeying source drives is a wait, or what one that never waits would drive. -/
theorem Bench.Obeys.receive_eq {b : Bench} {i : Inputs} (h : b.Obeys i) (hbusy : b.machine.busy = true)
    (onByte : Byte → State) (onEos : State) :
    b.machine.receive i onByte onEos = b.machine ∨
      b.machine.receive i onByte onEos = b.machine.receive b.machine.readyInputs onByte onEos := by
  cases hv : i.inValid with
  | true =>
    obtain ⟨bs, hunread⟩ := List.head?_eq_some_iff.1 (h.nextByte hbusy hv)
    exact .inr (by rw [State.receive_ready_of_cons hunread, State.receive, hv]; rfl)
  | false =>
    cases he : i.inEos with
    | true => exact .inr (by rw [State.receive_ready_of_nil (h.eosAtEnd hbusy he), State.receive, hv, he]; rfl)
    | false => exact .inl (State.receive_of_stall hv he _ _ _)

/-- R95: an edge waits, or is the edge without a stall. -/
theorem Bench.Obeys.transition_eq {b : Bench} {i : Inputs} (h : b.Obeys i) (hrst : i.rst = false)
    (hbusy : b.machine.busy = true) :
    b.machine.transition i = b.machine ∨ b.machine.transition i = b.machine.drive := by
  cases hsub : b.machine.sub with
  | hdr => rw [State.transition_of_hdr hrst hsub, State.drive_of_hdr hsub]; exact h.receive_eq hbusy _ _
  | op => rw [State.transition_of_op hrst hsub, State.drive_of_op hsub]; exact h.receive_eq hbusy _ _
  | lit => rw [State.transition_of_lit hrst hsub, State.drive_of_lit hsub]; exact h.receive_eq hbusy _ _
  | luma2 => rw [State.transition_of_luma2 hrst hsub, State.drive_of_luma2 hsub]; exact h.receive_eq hbusy _ _
  | emit =>
    rw [State.transition_of_emit hrst hsub, State.drive_of_emit hsub]
    split
    · exact .inl rfl
    · exact .inr rfl
  | idle | done | err => simp [State.busy, State.state, SubState.engine, hsub] at hbusy

/-- Settles O51: an edge that does not wait is the edge without a stall; at a boundary it is the first of the step's
item, inside an item it leads to the same end. -/
theorem clockRefinesStep : Obligations.ClockRefinesStep := by
  unfold Obligations.ClockRefinesStep
  intro i b t hobeys hrst hstart hpos htick
  obtain ⟨rfl, -⟩ := State.commit_idem htick
  cases hbusy : b.machine.busy with
  | false =>
    have hs : i.start = false := by simpa [State.takesStart, hbusy] using hstart
    exact .inl (State.transition_of_not_busy hbusy hrst hs)
  | true =>
    rcases (Bench.Obeys.of_obeys hobeys).transition_eq hrst hbusy with hwait | hdrive
    · exact .inl hwait
    · rw [hdrive]
      cases hb : b.machine.atBoundary with
      | true => exact .inr (.inl ⟨rfl, advance_of_busy hbusy hpos⟩)
      | false => exact .inr (.inr ⟨rfl, State.finish_drive hb⟩)

end Sys2Proof.Machine
end

section
/-! PROOF. The state graph (R84): how HEADER and an operator end, read from their edges, and when a decode comes to DONE
(R87). -/

namespace Sys2Proof.Machine

/-! ### How an operator ends -/

theorem State.not_atBoundary_of_midOperator {s : State} (h : s.sub.midOperator = true) : s.atBoundary = false := by
  cases hsub : s.sub <;> simp_all [SubState.midOperator, State.atBoundary]

theorem State.TakesByte.midOperator {s t : State} (h : s.TakesByte t) : t.sub.midOperator = true := by
  obtain ⟨l, x, hx⟩ := h
  exact hx

/-- An operator is in progress, or it is over: at the next boundary, or in an error. -/
def State.InOperatorOrOver (s : State) : Prop := s.sub.midOperator = true ∨ s.sub = .op ∨ s.sub = .err

/-- S_LIT, S_LUMA2 and S_EMIT lead on in the operator, to its end, or to an error. -/
theorem State.drive_inOperatorOrOver {s : State} (h : s.sub.midOperator = true) : s.drive.InOperatorOrOver := by
  cases hsub : s.sub with
  | lit =>
    rw [State.drive_of_lit hsub]
    exact State.receive_ready_cases (fun b => .inl (s.takesByte_litByte b hsub).midOperator) (.inr (.inr rfl))
  | luma2 =>
    rw [State.drive_of_luma2 hsub]
    exact State.receive_ready_cases (fun b => .inl (s.takesByte_lumaSecond b).midOperator) (.inr (.inr rfl))
  | emit =>
    rw [State.drive_of_emit hsub, State.emitPend]
    split
    · exact .inr (.inl rfl)
    · exact .inl h
  | idle | hdr | op | done | err => rw [hsub] at h; cases h

theorem State.finish_sub_of_midOperator {s : State} (h : s.sub.midOperator = true) :
    s.finish.sub = .op ∨ s.finish.sub = .err := by
  have hend : s.finish.InOperatorOrOver := by
    refine State.driveToBoundary_midItem_induction (P := State.InOperatorOrOver) (fun u hb hu => ?_) (.inl h) _
    rcases hu with hmid | hop | herr
    · exact State.drive_inOperatorOrOver hmid
    · rw [State.atBoundary, hop] at hb; cases hb
    · rw [State.atBoundary, herr] at hb; cases hb
  refine hend.resolve_left fun hmid => ?_
  have hb := State.not_atBoundary_of_midOperator (s := s.finish) hmid
  rw [State.finish_atBoundary] at hb
  cases hb

theorem State.midOperator_drive_of_op {s : State} (hsub : s.sub = .op) (hbyte : s.pos < s.stream.length) :
    s.drive.sub.midOperator = true := by
  cases hunread : s.unread with
  | nil => exact absurd (s.unread_eq_nil_iff.1 hunread) (Nat.not_le.2 hbyte)
  | cons b bs =>
    rw [State.drive_of_op hsub, State.receive_ready_of_cons hunread]
    exact (s.takesByte_opByte b).midOperator

/-- R87: the end of the stream at an operator boundary. -/
theorem advance_of_exhausted {s : State} (hsub : s.sub = .op) (hend : s.stream.length ≤ s.pos) :
    advance s = State.commit { s with sub := .done } := by
  have hd : decode .operator s.unread = .rejected .exhausted := by rw [s.unread_eq_nil_iff.2 hend]; rfl
  rw [advance_of_op hsub, runItem_of_rejected hd]
  rfl

/-- R84: an operator leads to the next boundary or to an error. -/
theorem advance_sub_of_awaitOpcode {s t : State} (hpos : s.pos ≤ s.stream.length) (hstate : s.state = .awaitOpcode)
    (hmore : s.sub = .op → s.pos < s.stream.length) (h : advance s = .next t) : t.sub = .op ∨ t.sub = .err := by
  have hbusy : s.busy = true := s.busy_iff_state.2 (.inr hstate)
  by_cases hsub : s.sub = .op
  · rw [advance_of_busy hbusy hpos] at h
    obtain ⟨rfl, -⟩ := State.commit_idem h
    exact State.finish_sub_of_midOperator (State.midOperator_drive_of_op hsub (hmore hsub))
  · have hmid : s.sub.midOperator = true := by
      rcases s.busy_iff.1 hbusy with hhdr | hop | hmid
      · rw [State.state, hhdr] at hstate; cases hstate
      · exact absurd hop hsub
      · exact hmid
    rw [advance_of_midItem (State.not_atBoundary_of_midOperator hmid)] at h
    obtain ⟨rfl, -⟩ := State.commit_idem h
    exact State.finish_sub_of_midOperator hmid

/-! ### How HEADER ends -/

/-- R61 to R63: HEADER is over, in one of its three ways. -/
def State.HeaderOver (t : State) : Prop :=
  (t.sub = .op ∧ t.pos = 14 ∧ t.hdr.magic = Config.magic) ∨
    (t.sub = .err ∧ t.errCode = .formatError ∧ t.pos = 4) ∨
    (t.sub = .err ∧ t.errCode = .unexpectedEndOfStream ∧ t.pos = t.stream.length ∧ t.pos < 14)

theorem State.HeaderOver.sub_eq {t : State} (h : t.HeaderOver) : t.sub = .op ∨ t.sub = .err := by
  rcases h with ⟨hsub, -⟩ | ⟨hsub, -⟩ | ⟨hsub, -⟩
  · exact .inl hsub
  · exact .inr hsub
  · exact .inr hsub

theorem State.HeaderOver.atBoundary {t : State} (h : t.HeaderOver) : t.atBoundary = true := by
  rcases h.sub_eq with hsub | hsub <;> rw [State.atBoundary, hsub]

theorem Linked.drive {s : State} (hs : Linked s) : Linked s.drive := hs.transition fun _ => s.feeds_readyInputs

/-- HEADER is in progress, or it is over. -/
def State.InHeaderOrOver (s : State) : Prop := (s.sub = .hdr ∧ s.atBoundary = false) ∨ s.HeaderOver

/-- An edge of HEADER leads on in the record or to its end. -/
theorem Linked.drive_inHeaderOrOver {s : State} (hs : Linked s) (hsub : s.sub = .hdr) : s.drive.InHeaderOrOver := by
  obtain ⟨hpos, hcnt, -⟩ := hs.latches.headerLatch hsub
  have hnext := hs.drive
  cases hunread : s.unread with
  | nil =>
    have hend : s.pos = s.stream.length := le_antisymm hs.engine.posInStream (s.unread_eq_nil_iff.1 hunread)
    rw [State.drive_of_hdr hsub, State.receive_ready_of_nil hunread]
    exact .inr (.inr (.inr ⟨rfl, rfl, hend, (hpos.le.trans hcnt).trans_lt (by decide)⟩))
  | cons b bs =>
    by_cases hlast : s.hidden.cnt = 13#4
    · rw [State.drive_of_lastHeaderByte hsub hunread hlast] at hnext ⊢
      obtain ⟨-, hmagic, -⟩ := hnext.engine.after rfl
      rw [hlast] at hpos
      exact .inr (.inl ⟨rfl, congrArg (· + 1) hpos, hmagic⟩)
    by_cases hbad : s.hidden.cnt = 3#4 ∧ beWord s.hidden.hbuf[0] s.hidden.hbuf[1] s.hidden.hbuf[2] b ≠ Config.magic
    · obtain ⟨hthree, hne⟩ := hbad
      rw [State.drive_of_wrongMagic hsub hunread hthree hne]
      rw [hthree] at hpos
      exact .inr (.inr (.inl ⟨rfl, rfl, congrArg (· + 1) hpos⟩))
    · rw [State.drive_of_headerByte hsub hunread (fun hthree => by_contra fun hne => hbad ⟨hthree, hne⟩) hlast]
        at hnext ⊢
      obtain ⟨hcount, -, -⟩ := hnext.latches.headerLatch hsub
      refine .inl ⟨hsub, ?_⟩
      rw [State.atBoundary, State.consume_sub, State.latchHeaderByte_sub, hsub]
      refine decide_eq_false fun hzero => ?_
      rw [hzero] at hcount
      cases hcount

theorem Linked.finish_headerOver {s : State} (hs : Linked s) (h : s.InHeaderOrOver) : s.finish.HeaderOver := by
  have hend : Linked s.finish ∧ s.finish.InHeaderOrOver := by
    refine State.driveToBoundary_midItem_induction (P := fun u => Linked u ∧ u.InHeaderOrOver) (fun u hmid hu => ?_)
      ⟨hs, h⟩ _
    obtain ⟨hu, ⟨hsub, -⟩ | hover⟩ := hu
    · exact ⟨hu.drive, hu.drive_inHeaderOrOver hsub⟩
    · rw [hover.atBoundary] at hmid; cases hmid
  obtain ⟨-, ⟨-, hb⟩ | hover⟩ := hend
  · rw [State.finish_atBoundary] at hb; cases hb
  · exact hover

/-- R61 to R63: the step in HEADER goes through to its end. -/
theorem Linked.advance_header {s t : State} (hs : Linked s) (hsub : s.sub = .hdr) (h : advance s = .next t) :
    t.HeaderOver := by
  rw [advance_of_busy (s.busy_iff.2 (.inl hsub)) hs.engine.posInStream] at h
  obtain ⟨rfl, -⟩ := State.commit_idem h
  exact hs.drive.finish_headerOver (hs.drive_inHeaderOrOver hsub)

/-! ### DONE -/

theorem Inv.linked {s : State} (h : Inv s) : Linked s := ((inv_iff_linked s).1 h).1

/-- R87: exhaustion at a boundary is the one way to DONE. -/
theorem Inv.advance_done_iff {s t : State} (hs : Inv s) (hne : s.sub ≠ .done) (h : Machine.advance s = .next t) :
    t.sub = .done ↔ s.sub = .op ∧ s.pos = s.stream.length := by
  by_cases hend : s.sub = .op ∧ s.pos = s.stream.length
  · obtain ⟨hsub, hpos⟩ := hend
    rw [advance_of_exhausted hsub hpos.ge] at h
    obtain ⟨rfl, -⟩ := State.commit_idem h
    exact iff_of_true rfl ⟨hsub, hpos⟩
  · refine iff_of_false (fun hdone => ?_) hend
    cases hbusy : s.busy with
    | false =>
      rw [advance_of_not_busy hbusy] at h
      cases h
      exact hne hdone
    | true =>
      have hsub : t.sub = .op ∨ t.sub = .err := by
        rcases s.busy_iff_state.1 hbusy with hstate | hstate
        · have hhdr : s.sub = .hdr := by cases hsub : s.sub <;> rw [State.state, hsub] at hstate <;> trivial
          exact (hs.linked.advance_header hhdr h).sub_eq
        · exact advance_sub_of_awaitOpcode hs.posInStream hstate
            (fun hop => lt_of_le_of_ne hs.posInStream fun hpos => hend ⟨hop, hpos⟩) h
      simp [hdone] at hsub

/-- Settles O27: the step is the machine's own or a reset, and only the machine's own can come to DONE. -/
theorem exhaustionAtABoundaryIsDone : Obligations.ExhaustionAtABoundaryIsDone := by
  unfold Obligations.ExhaustionAtABoundaryIsDone
  refine ⟨fun s hsub hquiet ⟨hpos, hcursor⟩ hend => ?_, fun s t hs hne h => ⟨?_, fun hdone => ?_⟩⟩
  · rw [step_of_no_command hquiet, advance_of_exhausted hsub hend.ge]
    exact State.commit_of_lt _ hpos hcursor
  · rcases step_cases h with ⟨hadv, hrst⟩ | ⟨S, hstart, hbusy, rfl⟩ | ⟨hrst, rfl⟩
    · rw [(hs.queue s.commands.tail).advance_done_iff hne hadv]
      simp [hrst]
    · have hop : s.sub ≠ .op := fun hop => by rw [State.busy, State.state, hop] at hbusy; cases hbusy
      simp [hop]
    · simp [hrst]
  · have ht := stepKeepsInvariant s t hs h
    exact ⟨ht.doneAtEnd hdone, ht.errCodeIff.2 (by simp [hdone])⟩

/-! ### The graph -/

/-- R103: once the header is read, ERROR is the end of the stream. -/
theorem Inv.endError_of_hdrValid {s : State} (h : Inv s) (hsub : s.sub = .err) (hvalid : s.hdrValid = true) :
    s.errCode = .unexpectedEndOfStream ∧ s.pos = s.stream.length := by
  have hcode : s.errCode = .unexpectedEndOfStream := by
    cases hcode : s.errCode with
    | none => exact absurd hsub (h.errCodeIff.1 hcode)
    | formatError =>
      obtain ⟨⟨hinvalid, -, -⟩, -, -⟩ := h.formatError hcode
      rw [hvalid] at hinvalid
      cases hinvalid
    | decodeError => exact absurd hcode h.noDecodeError
    | unexpectedEndOfStream => rfl
  obtain ⟨hpos, -⟩ := h.endError hcode
  exact ⟨hcode, hpos⟩

theorem State.state_eq_header_iff (s : State) : s.state = .header ↔ s.sub = .hdr := by
  rw [State.state]
  cases s.sub <;> decide

/-- R84: out of AWAIT_OPCODE. -/
theorem Inv.advance_awaitOpcode {s t : State} (hs : Inv s) (hstate : s.state = .awaitOpcode)
    (h : Machine.advance s = .next t) :
    t.state = .awaitOpcode ∨ (t.state = .done ∧ s.sub = .op ∧ s.pos = s.stream.length) ∨
      (t.state = .error ∧ t.errCode = .unexpectedEndOfStream ∧ t.pos = t.stream.length) := by
  by_cases hend : s.sub = .op ∧ s.pos = s.stream.length
  · obtain ⟨hsub, hpos⟩ := hend
    rw [advance_of_exhausted hsub hpos.ge] at h
    obtain ⟨rfl, -⟩ := State.commit_idem h
    exact .inr (.inl ⟨rfl, hsub, hpos⟩)
  · rcases advance_sub_of_awaitOpcode hs.posInStream hstate
      (fun hop => lt_of_le_of_ne hs.posInStream fun hpos => hend ⟨hop, hpos⟩) h with hop | herr
    · exact .inl (by rw [State.state, hop]; rfl)
    · have hafter : s.sub.afterHeader = true ∧ s.sub ≠ .hdr := by
        cases hsub : s.sub <;> simp_all [State.state, SubState.engine, SubState.afterHeader]
      obtain ⟨hafter, hhdr⟩ := hafter
      obtain ⟨hread, -, -⟩ := hs.after hafter
      have hvalid : t.hdrValid = true := (advance_sameSetting hhdr h).hdrValid.trans hread
      exact .inr (.inr ⟨by rw [State.state, herr]; rfl, (hs.advance h).endError_of_hdrValid herr hvalid⟩)

/-- R84: out of HEADER. -/
theorem Inv.advance_header {s t : State} (hs : Inv s) (hstate : s.state = .header) (h : Machine.advance s = .next t) :
    (t.state = .awaitOpcode ∧ t.pos = 14 ∧ t.hdr.magic = Config.magic) ∨
      (t.state = .error ∧ t.errCode = .formatError ∧ t.pos = 4) ∨
      (t.state = .error ∧ t.errCode = .unexpectedEndOfStream ∧ t.pos = t.stream.length ∧ t.pos < 14) := by
  rcases hs.linked.advance_header (s.state_eq_header_iff.1 hstate) h with ⟨hsub, hrest⟩ | ⟨hsub, hrest⟩ | ⟨hsub, hrest⟩
  · exact .inl ⟨by rw [State.state, hsub]; rfl, hrest⟩
  · exact .inr (.inl ⟨by rw [State.state, hsub]; rfl, hrest⟩)
  · exact .inr (.inr ⟨by rw [State.state, hsub]; rfl, hrest⟩)

/-- Settles O44: `rst` and an accepted `start` go to IDLE and HEADER; without them the machine holds, runs HEADER or
runs an operator. -/
theorem stepFollowsTheStateGraph : Obligations.StepFollowsTheStateGraph := by
  unfold Obligations.StepFollowsTheStateGraph
  intro s t hs h
  rcases step_cases h with ⟨hadv, hrst⟩ | ⟨S, hstart, hbusy, rfl⟩ | ⟨hrst, rfl⟩
  · have hholds (hbusy : s.busy = false) : t.state = s.state := by
      rw [advance_of_not_busy (s := s.queue s.commands.tail) hbusy] at hadv
      cases hadv
      rfl
    have hqueue := hs.queue s.commands.tail
    refine ⟨fun h => absurd h hrst, fun _ => ⟨fun hi => ?_, fun hd => ?_, fun he => ?_, fun hh => ?_, fun ha => ?_⟩⟩
    · exact .inl ((hholds (by rw [State.busy, hi]; rfl)).trans hi)
    · exact .inl ((hholds (by rw [State.busy, hd]; rfl)).trans hd)
    · exact .inl ((hholds (by rw [State.busy, he]; rfl)).trans he)
    · exact hqueue.advance_header hh hadv
    · exact hqueue.advance_awaitOpcode ha hadv
  · have hidle : ¬(s.state = .header ∨ s.state = .awaitOpcode) := by
      rw [← s.busy_iff_state, hbusy]
      exact Bool.false_ne_true
    refine ⟨fun h => by simp [hstart] at h, fun _ => ⟨fun _ => .inr ⟨rfl, S, hstart⟩, fun _ => .inr ⟨rfl, S, hstart⟩,
      fun _ => .inr ⟨rfl, S, hstart⟩, fun hh => ?_, fun ha => ?_⟩⟩
    · exact (hidle (.inl hh)).elim
    · exact (hidle (.inr ha)).elim
  · exact ⟨fun _ => rfl, fun hne => absurd hrst hne⟩

end Sys2Proof.Machine
end

section
/-! PROOF. An operator at the counters' limits, whole or cut short: it is refused by name at 2^64 (D12, V7), and within
the limits every instruction answers (R104, R105). -/

namespace Sys2Proof.Machine

/-! ### The refusals -/

theorem State.commit_of_limit_le_pos {s : State} (h : Config.counterLimit ≤ s.pos) :
    s.commit = .refused .positionLimit := if_pos h

theorem State.commit_of_limit_le_cursor {s : State} (hpos : s.pos < Config.counterLimit)
    (h : Config.counterLimit ≤ s.cursor) : s.commit = .refused .cursorLimit := by
  rw [State.commit, if_neg (Nat.not_le.2 hpos), if_pos h]

/-! ### An operator, whole or cut short -/

theorem Performs.pos_eq {i : Instr} {s t : State} (h : Performs i s t) : t.pos = s.pos + i.length := by
  obtain ⟨l, rfl⟩ := h
  exact congrArg (· + i.length) (s.foldl_emit_frame _).1

theorem Performs.cursor_eq {i : Instr} {s t : State} (h : Performs i s t) :
    t.cursor = s.cursor + (pixelsOf s.prev s.cache i).length := by
  obtain ⟨l, rfl⟩ := h
  exact s.foldl_emit_cursor _

/-- R90: an operator of one byte asks for no other, so it need not ask the stream at all (log entry 10). -/
theorem exec_performs_of_whole {i : Instr} {s : State} (hi : i.position = .operator)
    (hwhole : i.length = 1 ∨ s.pos + i.length ≤ s.stream.length) : ∃ t, Performs i s t ∧ exec i s = t.commit := by
  rcases hwhole with hone | hfit
  · cases i with
    | header | rgb | rgba | luma => cases hone
    | index k => exact ⟨_, .of_produce (u := s.consume 1) (n := 1) rfl rfl, rfl⟩
    | diff fr fg fb => exact ⟨_, .of_produce (u := s.consume 1) (n := 1) rfl rfl, rfl⟩
    | run n => exact ⟨_, .of_produce (u := s.consume 1) rfl rfl, exec_run n s⟩
  · exact exec_performs hi hfit

/-- R103: an operator with operand bytes of which some are missing. -/
theorem exec_cutShort {i : Instr} {s : State} (hi : i.position = .operator) (hlong : 1 < i.length)
    (hend : s.stream.length < s.pos + i.length) : ∃ t b0, CutShort s t b0 ∧ exec i s = t.commit := by
  cases i with
  | header => cases hi
  | rgb r g b => exact ⟨_, _, s.cutShort_literalEnded _, exec_rgb_of_end r g b hend⟩
  | rgba r g b a => exact ⟨_, _, s.cutShort_literalEnded _, exec_rgba_of_end r g b a hend⟩
  | luma fg frg fbg => exact ⟨_, _, s.cutShort_lumaEnded _, exec_luma_of_end fg frg fbg hend⟩
  | index | diff | run => exact absurd hlong (lt_irrefl 1)

theorem exec_performs_or_cutShort {i : Instr} (hi : i.position = .operator) (s : State) :
    (∃ t, Performs i s t ∧ exec i s = t.commit) ∨ ∃ t b0, CutShort s t b0 ∧ exec i s = t.commit := by
  by_cases hwhole : i.length = 1 ∨ s.pos + i.length ≤ s.stream.length
  · exact .inl (exec_performs_of_whole hi hwhole)
  · obtain ⟨hone, hend⟩ := not_or.1 hwhole
    have hbyte := instr_length_pos i
    exact .inr (exec_cutShort hi (by omega) (Nat.lt_of_not_le hend))

/-! ### At the limits -/

/-- Settles O21: a counter at its limit is refused whatever the item did, and each item moves `pos` by its bytes or to
the end of the stream. -/
theorem countersAreRefusedAtTheirLimit : Obligations.CountersAreRefusedAtTheirLimit := by
  unfold Obligations.CountersAreRefusedAtTheirLimit
  refine ⟨fun i s hi hwhole => ?_, fun i s hi hlong hend hlimit => ?_, fun m w h c cs s => ⟨?_, ?_, ?_⟩⟩
  · obtain ⟨t, ht, heq⟩ := exec_performs_of_whole hi hwhole
    rw [heq, ← ht.pos_eq, ← ht.cursor_eq]
    exact ⟨State.commit_of_limit_le_pos, State.commit_of_limit_le_cursor⟩
  · obtain ⟨t, b0, ht, heq⟩ := exec_cutShort hi hlong hend
    rw [heq]
    exact State.commit_of_limit_le_pos (ht.pos ▸ hlimit)
  · intro hfit hm hlimit
    obtain ⟨t, ht, heq⟩ := exec_header_of_fits w h c cs hm hfit
    rw [heq]
    exact State.commit_of_limit_le_pos (ht.pos ▸ hlimit)
  · intro hfit hm hlimit
    rw [exec_header_of_otherMagic w h c cs hm hfit]
    exact State.commit_of_limit_le_pos hlimit
  · intro hend hcut hlimit
    rw [exec_header_of_end w h c cs hend hcut]
    exact State.commit_of_limit_le_pos hlimit

/-! ### Within the limits -/

theorem instr_length_le (i : Instr) : i.length ≤ 14 := by
  cases i <;> simp [Instr.length]

/-- R77: RUN with the highest value of its six bits is the most, well-formed or not. -/
theorem pixelsOf_length_le_slots (prev : Pixel) (cache : Vector Pixel 64) (i : Instr) :
    (pixelsOf prev cache i).length ≤ 64 := by
  cases i with
  | header => exact Nat.zero_le _
  | run n => simpa [pixelsOf, runCount, Config.runBias] using n.isLt
  | rgb | rgba | index | diff | luma => exact Nat.le_add_left 1 63

theorem HeaderEffect.pos_le {s t : State} (h : HeaderEffect s t) : t.pos ≤ max (s.pos + 14) s.stream.length := by
  cases h with
  | loaded => exact le_max_left _ _
  | ended => exact le_max_right _ _
  | mismatched => exact (Nat.add_le_add_left (by decide) s.pos).trans (le_max_left _ _)

theorem HeaderEffect.cursor_eq {s t : State} (h : HeaderEffect s t) : t.cursor = s.cursor := by
  cases h <;> rfl

/-- R12, R13: how far an operator can take the two counters. -/
theorem exec_operator_counters_le {i : Instr} (hi : i.position = .operator) (s : State) :
    ∃ t : State, exec i s = t.commit ∧ t.pos ≤ max (s.pos + 14) s.stream.length ∧ t.cursor ≤ s.cursor + 64 := by
  rcases exec_performs_or_cutShort hi s with ⟨t, ht, heq⟩ | ⟨t, b0, ht, heq⟩
  · refine ⟨t, heq, ?_, ?_⟩
    · rw [ht.pos_eq]
      exact (Nat.add_le_add_left (instr_length_le i) _).trans (le_max_left _ _)
    · rw [ht.cursor_eq]
      exact Nat.add_le_add_left (pixelsOf_length_le_slots _ _ i) _
  · exact ⟨t, heq, ht.pos.le.trans (le_max_right _ _), ht.pixels.cursor.le.trans (Nat.le_add_right _ _)⟩

theorem exec_counters_le (i : Instr) (s : State) :
    ∃ t : State, exec i s = t.commit ∧ t.pos ≤ max (s.pos + 14) s.stream.length ∧ t.cursor ≤ s.cursor + 64 := by
  cases i with
  | header m w ht c cs =>
    obtain ⟨t, heff, heq⟩ := execHeader_eq_commit m w ht c cs s
    exact ⟨t, heq, heff.pos_le, heff.cursor_eq.le.trans (Nat.le_add_right _ _)⟩
  | rgb | rgba | index | diff | luma | run => exact exec_operator_counters_le rfl s

/-- Settles O20: the room is that of the longest instruction and the most pixels, and a cut goes no further than the
end of the stream. -/
theorem everyInstructionAnswersAState : Obligations.EveryInstructionAnswersAState := by
  unfold Obligations.EveryInstructionAnswersAState
  rintro i s ⟨hpos, hcursor⟩ hstream
  obtain ⟨t, heq, htpos, htcursor⟩ := exec_counters_le i s
  exact ⟨t, heq.trans (t.commit_of_lt (htpos.trans_lt (max_lt hpos hstream)) (htcursor.trans_lt hcursor))⟩

end Sys2Proof.Machine
end

section
/-! PROOF. The errors: an operator at the step, cut short or whole (R103), and that no error comes after a pixel of the
same item (R106, R107). -/

namespace Sys2Proof.Machine

/-! ### The stream ends inside an operator -/

/-- R89: what was decoded is there to be consumed. -/
theorem State.fits_of_decode {p : Position} {s : State} {i : Instr} {rest : List Byte}
    (h : decode p s.unread = .instr i rest) : s.pos + i.length ≤ s.stream.length := by
  obtain ⟨-, -, hbytes⟩ := decode_eq_encode h
  have hlen := s.unread_length
  rw [hbytes, List.length_append, encode_length] at hlen
  have hbyte := instr_length_pos i
  omega

theorem runItem_performs {s : State} {i : Instr} {rest : List Byte} (h : decode .operator s.unread = .instr i rest) :
    ∃ t, Performs i s t ∧ runItem .operator s = t.commit := by
  obtain ⟨-, hi, -⟩ := decode_eq_encode h
  rw [runItem_of_instr h]
  exact exec_performs hi (State.fits_of_decode h)

theorem runItem_cutShort {s : State} {b0 : Byte} (h : decode .operator s.unread = .rejected (.operatorEnd b0)) :
    ∃ t, CutShort s t b0 ∧ runItem .operator s = t.commit := by
  rw [runItem_of_rejected h]
  obtain ⟨hr, -⟩ | ⟨b, tag, hr, htag, hop⟩ := decodeOperator_eq_rejected h
  · cases hr
  · cases hr
    simp only [takeReject, htag]
    cases tag with
    | rgb | rgba => exact ⟨_, s.cutShort_literalEnded b0, rfl⟩
    | luma => exact ⟨_, s.cutShort_lumaEnded b0, rfl⟩
    | index | diff | run => exact absurd rfl hop

theorem State.foldl_emit_errCode (s : State) (ps : List Pixel) : (ps.foldl State.emit s).errCode = s.errCode := by
  induction ps generalizing s with
  | nil => rfl
  | cons p ps ih => exact ih (s.emit p)

theorem Performs.sub_eq {i : Instr} {s t : State} (h : Performs i s t) : t.sub = s.sub := by
  obtain ⟨l, rfl⟩ := h
  obtain ⟨-, hsub, -⟩ := s.foldl_emit_frame (pixelsOf s.prev s.cache i)
  exact hsub

theorem Performs.errCode_eq {i : Instr} {s t : State} (h : Performs i s t) : t.errCode = s.errCode := by
  obtain ⟨l, rfl⟩ := h
  exact s.foldl_emit_errCode _

/-- Settles O28: the decoder asks for the operand bytes of the tag, and what it answers is cut short or performed. -/
theorem cutShortOperatorsTakeUnexpectedEnd : Obligations.CutShortOperatorsTakeUnexpectedEnd := by
  unfold Obligations.CutShortOperatorsTakeUnexpectedEnd
  intro s b0 more tag hsub hquiet hunread htag hstream hcursor
  rw [step_of_no_command hquiet, advance_of_op hsub]
  refine ⟨fun hcut => ?_, fun hwhole t h => ?_⟩
  · obtain ⟨t, ht, heq⟩ := runItem_cutShort (s := s) (hunread ▸ decodeOperator_cutShort htag hcut)
    exact ⟨t, heq.trans (ht.commit_eq hstream hcursor), ht⟩
  · obtain ⟨i, rest, hd⟩ := decodeOperator_whole htag hwhole
    obtain ⟨u, hu, heq⟩ := runItem_performs (s := s) (hunread ▸ hd)
    rw [heq] at h
    obtain ⟨rfl, -⟩ := State.commit_idem h
    exact ⟨hu.sub_eq.trans hsub, hu.errCode_eq⟩

/-! ### Entering ERROR -/

/-- Settles O30: the three registers are the ones that `raise` names, and ERROR is not busy. -/
theorem errorEntryWritesThreeRegisters : Obligations.ErrorEntryWritesThreeRegisters := by
  unfold Obligations.ErrorEntryWritesThreeRegisters
  refine fun s e q => ⟨rfl, fun hquiet => ?_, rfl, rfl, rfl, ⟨rfl, rfl, rfl, rfl, rfl⟩, ⟨rfl, rfl, rfl, rfl, rfl⟩, rfl,
    rfl⟩
  rw [step_of_no_command (s := s.raise e q) hquiet]
  exact advance_of_not_busy rfl

/-! ### No error after a pixel of the same item -/

theorem SamePixels.refl (s : State) : SamePixels s s := ⟨rfl, rfl, rfl, rfl, rfl⟩

theorem SamePixels.trans {s t u : State} (h : SamePixels s t) (h' : SamePixels t u) : SamePixels s u :=
  ⟨h'.prev.trans h.prev, h'.cache.trans h.cache, h'.cursor.trans h.cursor, h'.out.trans h.out, h'.trace.trans h.trace⟩

/-- R93: no pixel of the item has been emitted yet, or the item emits or is over without an error. -/
def State.EmitsOnlyPastErrors (s t : State) : Prop := SamePixels s t ∨ t.sub = .emit ∨ t.sub = .op

theorem State.emitPend_sub {s : State} (h : s.sub = .emit) : s.emitPend.sub = .emit ∨ s.emitPend.sub = .op := by
  unfold State.emitPend
  split
  · exact .inr rfl
  · exact .inl h

theorem State.EmitsOnlyPastErrors.drive {s t : State} (h : s.EmitsOnlyPastErrors t) (hmid : t.atBoundary = false) :
    s.EmitsOnlyPastErrors t.drive := by
  rcases h with hsame | hemit | hop
  · have heff := t.drive_effect
    generalize t.drive = u at heff ⊢
    cases heff with
    | waits => exact .inl hsame
    | takes _ _ h => exact .inl (hsame.trans h.pixels)
    | ends _ _ h => exact .inl (hsame.trans h.pixels)
    | emits hsub => exact .inr (State.emitPend_sub hsub)
  · rw [State.drive_of_emit hemit]
    exact .inr (State.emitPend_sub hemit)
  · rw [State.atBoundary, hop] at hmid
    cases hmid

theorem State.finish_emitsOnlyPastErrors (s : State) : s.EmitsOnlyPastErrors s.finish :=
  State.driveToBoundary_midItem_induction (P := s.EmitsOnlyPastErrors) (fun _ hmid h => h.drive hmid)
    (.inl (.refl s)) _

theorem HeaderEffect.samePixels {s t : State} (h : HeaderEffect s t) : SamePixels s t := by
  cases h <;> exact ⟨rfl, rfl, rfl, rfl, rfl⟩

theorem OperatorEffect.samePixels_of_err {s t : State} (h : OperatorEffect s t) (herr : t.sub = .err)
    (hne : s.sub ≠ .err) : SamePixels s t := by
  cases h with
  | ended => cases herr
  | emitted l len n p => exact absurd ((State.emitTimes_sub _ p n).symm.trans herr) hne
  | cutShort => exact ⟨rfl, rfl, rfl, rfl, rfl⟩

theorem advance_samePixels_of_err {s t : State} (h : advance s = .next t) (herr : t.sub = .err) (hne : s.sub ≠ .err) :
    SamePixels s t := by
  rcases advance_cases h with ⟨-, rfl⟩ | ⟨-, ⟨-, -, heff⟩ | ⟨-, heff⟩ | ⟨-, rfl⟩⟩
  · exact .refl _
  · exact heff.samePixels
  · exact heff.samePixels_of_err herr hne
  · exact s.finish_emitsOnlyPastErrors.resolve_right (by simp [herr])

/-- Settles O31: HEADER emits nothing, an operator raises before its first pixel or not at all, whole or in progress. -/
theorem errorsArePrecise : Obligations.ErrorsArePrecise := by
  unfold Obligations.ErrorsArePrecise
  intro s t h herr hne
  rcases step_cases h with ⟨hadv, -⟩ | ⟨S, -, -, rfl⟩ | ⟨-, rfl⟩
  · exact { advance_samePixels_of_err hadv herr hne with }
  · cases herr
  · cases herr

end Sys2Proof.Machine
end

section
/-! PROOF. The read of a slot just written (R123), and the two resets (R116, R117). -/

namespace Sys2Proof.Machine

/-! ### INDEX after `Emit` -/

/-- Settles O25: the slot holds the pixel just emitted, so that INDEX reads it and writes it back. -/
theorem indexSeesThePixelJustEmitted : Obligations.IndexSeesThePixelJustEmitted := by
  unfold Obligations.IndexSeesThePixelJustEmitted
  intro s p k hk hroom
  have hslot : (s.emit p).cache.get (slotHash p) = p := (s.emits_emit p).cache_slotHash
  obtain ⟨t, hexec, hdone⟩ := exec_index_completes k hroom
  rw [hk, hslot] at hdone
  exact ⟨t, hexec, hdone.emits, hdone.emits.cache_eq hslot⟩

/-! ### The two resets -/

/-- Settles O34: the three states are those that are not busy, and there `start` is the per-decode reset. -/
theorem startResetsTheDecode : Obligations.StartResetsTheDecode := by
  unfold Obligations.StartResetsTheDecode
  intro s S q hsub hstart
  have hbusy : ¬s.busy = true := Bool.eq_false_iff.1 (s.not_busy_iff.2 hsub)
  refine ⟨((s.queue q).present S).perDecodeReset, ?_, rfl, fun k => ?_, rfl, rfl, rfl, rfl, rfl, rfl, rfl, rfl, rfl,
    rfl⟩
  · rw [step, stepOnce, hstart]
    exact if_neg hbusy
  · simp [Vector.get_eq_getElem, Config.cacheInit]

/-- R116: both counters stand at 0. -/
theorem State.powerOnReset_commit (s : State) : s.powerOnReset.commit = .next s.powerOnReset :=
  State.commit_of_lt _ (by decide : 0 < Config.counterLimit) (by decide : 0 < Config.counterLimit)

/-- Settles O35: at the step and at the edge `rst` is asked first, and it leads to the power-on reset. -/
theorem rstGoesToIdle : Obligations.RstGoesToIdle := by
  unfold Obligations.RstGoesToIdle
  refine fun s => ⟨fun q hrst => ⟨(s.queue q).powerOnReset, ?_, rfl, rfl, rfl, rfl, rfl, rfl, rfl, rfl, rfl, rfl⟩,
    fun i hrst => ⟨s.powerOnReset, ?_, rfl, rfl, rfl, rfl, rfl, rfl, rfl, rfl, rfl⟩⟩
  · rw [step, stepOnce, hrst]
    rfl
  · rw [tick, State.transition, if_pos hrst]
    exact s.powerOnReset_commit

end Sys2Proof.Machine
end

section
/-! PROOF. A decode depends on its stream alone (R86, R98, R120): two machines decoding one stream go through the same
states, but for what a decode never reads, and give the same report and the same image. -/

namespace Sys2Proof.Machine

/-! ### Two decodes of one stream -/

/-- R86: the machine as the decode of `S` begins. -/
def State.begins (s : State) (S : List Byte) : State := (s.present S).perDecodeReset

/-- R120: two machines at one point past HEADER of decodes of one stream. What the per-decode reset leaves open may
differ: the hidden registers, `err_pos` outside ERROR, the header registers while they are not valid, and OUT where this
decode has not written. -/
structure SameDecode (s t : State) : Prop where
  pastHeader : (s.sub = .op ∧ s.hdrValid = true) ∨ s.busy = false
  stream : t.stream = s.stream
  pos : t.pos = s.pos
  sub : t.sub = s.sub
  errCode : t.errCode = s.errCode
  errPos : s.sub = .err → t.errPos = s.errPos
  prev : t.prev = s.prev
  cache : t.cache = s.cache
  cursor : t.cursor = s.cursor
  trace : t.trace = s.trace
  hdrValid : t.hdrValid = s.hdrValid
  hdr : s.hdrValid = true → t.hdr = s.hdr
  image : s.hdrValid = true → ∀ i, i < s.cursor → i < s.npix → t.out.readPixel i = s.out.readPixel i

theorem SameDecode.unread_eq {s t : State} (h : SameDecode s t) : t.unread = s.unread := by
  rw [State.unread, State.unread, h.stream, h.pos]

theorem SameDecode.npix_eq {s t : State} (h : SameDecode s t) (hvalid : s.hdrValid = true) : t.npix = s.npix := by
  rw [State.npix, State.npix, h.hdr hvalid]

theorem SameDecode.inside_eq {s t : State} (h : SameDecode s t) (hvalid : s.hdrValid = true) : t.inside = s.inside := by
  rw [State.inside, State.inside, h.cursor, h.npix_eq hvalid]

theorem SameDecode.hdrValid_of_op {s t : State} (h : SameDecode s t) (hsub : s.sub = .op) : s.hdrValid = true := by
  rcases h.pastHeader with ⟨-, hvalid⟩ | hbusy
  · exact hvalid
  · rw [State.busy, State.state, hsub] at hbusy
    cases hbusy

/-! ### HEADER -/

theorem HeaderLoads.sameDecode {S : List Byte} {s₁ s₂ t₁ t₂ : State} {h : Header} (h₁ : HeaderLoads (s₁.begins S) t₁ h)
    (h₂ : HeaderLoads (s₂.begins S) t₂ h) : SameDecode t₁ t₂ where
  pastHeader := .inl ⟨h₁.sub, h₁.hdrValid⟩
  stream := h₂.stream.trans h₁.stream.symm
  pos := h₂.pos.trans h₁.pos.symm
  sub := h₂.sub.trans h₁.sub.symm
  errCode := h₂.errCode.trans h₁.errCode.symm
  errPos herr := by rw [h₁.sub] at herr; cases herr
  prev := h₂.pixels.prev.trans h₁.pixels.prev.symm
  cache := h₂.pixels.cache.trans h₁.pixels.cache.symm
  cursor := h₂.pixels.cursor.trans h₁.pixels.cursor.symm
  trace := h₂.pixels.trace.trans h₁.pixels.trace.symm
  hdrValid := h₂.hdrValid.trans h₁.hdrValid.symm
  hdr _ := h₂.hdr.trans h₁.hdr.symm
  image _ i hi := by rw [h₁.pixels.cursor] at hi; cases hi

theorem HeaderFails.sameDecode {S : List Byte} {s₁ s₂ t₁ t₂ : State} {e : ErrCode} {n : Nat}
    (h₁ : HeaderFails (s₁.begins S) t₁ e n) (h₂ : HeaderFails (s₂.begins S) t₂ e n) : SameDecode t₁ t₂ where
  pastHeader := .inr (t₁.not_busy_iff.2 (.inr (.inr h₁.sub)))
  stream := h₂.stream.trans h₁.stream.symm
  pos := h₂.pos.trans h₁.pos.symm
  sub := h₂.sub.trans h₁.sub.symm
  errCode := h₂.errCode.trans h₁.errCode.symm
  errPos _ := h₂.errPos.trans h₁.errPos.symm
  prev := h₂.pixels.prev.trans h₁.pixels.prev.symm
  cache := h₂.pixels.cache.trans h₁.pixels.cache.symm
  cursor := h₂.pixels.cursor.trans h₁.pixels.cursor.symm
  trace := h₂.pixels.trace.trans h₁.pixels.trace.symm
  hdrValid := h₂.hdrValid.trans h₁.hdrValid.symm
  hdr hvalid := by rw [h₁.hdrValid] at hvalid; cases hvalid
  image _ i hi := by rw [h₁.pixels.cursor] at hi; cases hi

/-- R61: the registers loaded are those of the record. -/
theorem runItem_header_loads {S rest : List Byte} {i : Instr} (hd : decode .header S = .instr i rest) :
    ∃ h, ∀ s : State, ∃ t, HeaderLoads (s.begins S) t h ∧ runItem .header (s.begins S) = t.commit := by
  obtain ⟨m, w, ht, c, cs, rfl⟩ := decodeHeader_eq_instr hd
  obtain ⟨hwf, -, -⟩ := decode_eq_encode hd
  refine ⟨⟨m, w, ht, c, cs⟩, fun s => ?_⟩
  rw [runItem_of_instr (s := s.begins S) hd]
  exact exec_header_of_fits w ht c cs (of_decide_eq_true hwf) (State.fits_of_decode (s := s.begins S) hd)

/-- R62, R63: the error and the bytes consumed are those of the stream. -/
theorem runItem_header_fails {S : List Byte} {r : Reject} (hd : decode .header S = .rejected r) :
    ∃ e n, ∀ s : State, ∃ t, HeaderFails (s.begins S) t e n ∧ runItem .header (s.begins S) = t.commit := by
  obtain ⟨rfl, -, -⟩ | ⟨rfl, m0, m1, m2, m3, more, hS, -⟩ := decodeHeader_rejected_cases hd
  · refine ⟨.unexpectedEndOfStream, S.length, fun s => ⟨(s.begins S).headerEnded, ?_, ?_⟩⟩
    · exact (s.begins S).headerFails_raise _ _ _
    · exact runItem_of_rejected (s := s.begins S) hd
  · refine ⟨.formatError, 4, fun s => ⟨(s.begins S).magicMismatch (beWord m0 m1 m2 m3), ?_, ?_⟩⟩
    · exact (s.begins S).headerFails_raise _ _ _
    · have hunread : (s.begins S).unread = m0 :: m1 :: m2 :: m3 :: more := hS
      rw [runItem_of_rejected (s := s.begins S) hd, takeReject, hunread]

theorem runItem_header_sameDecode (S : List Byte) (s₁ s₂ : State) :
    ∃ t₁ t₂, SameDecode t₁ t₂ ∧ runItem .header (s₁.begins S) = t₁.commit ∧
      runItem .header (s₂.begins S) = t₂.commit := by
  cases hd : decode .header S with
  | instr i rest =>
    obtain ⟨h, hloads⟩ := runItem_header_loads hd
    obtain ⟨t₁, h₁, heq₁⟩ := hloads s₁
    obtain ⟨t₂, h₂, heq₂⟩ := hloads s₂
    exact ⟨t₁, t₂, h₁.sameDecode h₂, heq₁, heq₂⟩
  | rejected r =>
    obtain ⟨e, n, hfails⟩ := runItem_header_fails hd
    obtain ⟨t₁, h₁, heq₁⟩ := hfails s₁
    obtain ⟨t₂, h₂, heq₂⟩ := hfails s₂
    exact ⟨t₁, t₂, h₁.sameDecode h₂, heq₁, heq₂⟩

/-! ### An operator -/

/-- R79: the index and the question whether it is inside the image are the same, so OUT is written in the same place. -/
theorem SameDecode.emit {s t : State} (h : SameDecode s t) (hvalid : s.hdrValid = true) (p : Pixel) :
    SameDecode (s.emit p) (t.emit p) :=
  { h with
    prev := rfl
    cache := by rw [State.emit_cache, State.emit_cache, h.cache]
    cursor := by rw [State.emit_cursor, State.emit_cursor, h.cursor]
    trace := by rw [State.emit_trace, State.emit_trace, h.trace, h.cursor, h.inside_eq hvalid]
    image := fun _ i hi hin => by
      rcases Nat.lt_succ_iff_lt_or_eq.1 hi with hlt | rfl
      · have hother : i ≠ t.cursor := by rw [h.cursor]; exact hlt.ne
        rw [t.emit_readPixel_other p i hother, s.emit_readPixel_other p i hlt.ne, h.image hvalid i hlt hin]
      · have hs : s.inside = true := s.inside_iff.2 hin
        have ht : t.inside = true := (h.inside_eq hvalid).trans hs
        rw [(t.emits_emit p).written _ ((t.writes_one_iff _).2 ⟨h.cursor.symm, ht⟩),
          (s.emits_emit p).written _ ((s.writes_one_iff _).2 ⟨rfl, hs⟩)] }

theorem SameDecode.foldl_emit {s t : State} (h : SameDecode s t) (hvalid : s.hdrValid = true) (ps : List Pixel) :
    SameDecode (ps.foldl State.emit s) (ps.foldl State.emit t) := by
  induction ps generalizing s t with
  | nil => exact h
  | cons p ps ih => exact ih (h.emit hvalid p) hvalid

/-- R90: the pixels of an operator are a function of `prev` and the cache. -/
theorem SameDecode.performs {i : Instr} {s t s' t' : State} (h : SameDecode s t) (hvalid : s.hdrValid = true)
    (hs : Performs i s s') (ht : Performs i t t') : SameDecode s' t' := by
  obtain ⟨l, rfl⟩ := hs
  obtain ⟨l', rfl⟩ := ht
  rw [h.prev, h.cache]
  have hpix := h.foldl_emit hvalid (pixelsOf s.prev s.cache i)
  exact { hpix with pos := congrArg (· + i.length) hpix.pos }

/-- R103, R107: the cut is at the same place in both, and no pixel has changed in either. -/
theorem SameDecode.cutShort {b0 : Byte} {s t s' t' : State} (h : SameDecode s t) (hs : CutShort s s' b0)
    (ht : CutShort t t' b0) : SameDecode s' t' where
  pastHeader := .inr (s'.not_busy_iff.2 (.inr (.inr hs.sub)))
  stream := by rw [ht.setting.stream, hs.setting.stream, h.stream]
  pos := by rw [ht.pos, hs.pos, h.stream]
  sub := ht.sub.trans hs.sub.symm
  errCode := ht.errCode.trans hs.errCode.symm
  errPos _ := by rw [ht.errPos, hs.errPos, h.pos]
  prev := by rw [ht.pixels.prev, hs.pixels.prev, h.prev]
  cache := by rw [ht.pixels.cache, hs.pixels.cache, h.cache]
  cursor := by rw [ht.pixels.cursor, hs.pixels.cursor, h.cursor]
  trace := by rw [ht.pixels.trace, hs.pixels.trace, h.trace]
  hdrValid := by rw [ht.setting.hdrValid, hs.setting.hdrValid, h.hdrValid]
  hdr hvalid := by
    rw [hs.setting.hdrValid] at hvalid
    rw [ht.setting.hdr, hs.setting.hdr, h.hdr hvalid]
  image hvalid := by
    rw [hs.setting.hdrValid] at hvalid
    rw [ht.pixels.out, hs.pixels.out, hs.pixels.cursor, State.npix, hs.setting.hdr]
    exact h.image hvalid

/-- R87: both find the stream exhausted. -/
theorem SameDecode.done {s t : State} (h : SameDecode s t) :
    SameDecode { s with sub := .done } { t with sub := .done } :=
  { h with pastHeader := .inr rfl, sub := rfl, errPos := fun herr => by cases herr }

theorem SameDecode.runItem {s t : State} (h : SameDecode s t) (hsub : s.sub = .op) :
    ∃ s' t', SameDecode s' t' ∧ Machine.runItem .operator s = s'.commit ∧ Machine.runItem .operator t = t'.commit := by
  have hunread := h.unread_eq
  cases hd : decode .operator s.unread with
  | instr i rest =>
    obtain ⟨s', hs, heqs⟩ := runItem_performs hd
    obtain ⟨t', ht, heqt⟩ := runItem_performs (hunread.symm ▸ hd)
    exact ⟨s', t', h.performs (h.hdrValid_of_op hsub) hs ht, heqs, heqt⟩
  | rejected r =>
    obtain ⟨rfl, -⟩ | ⟨b0, -, rfl, -⟩ := decodeOperator_eq_rejected hd
    · exact ⟨_, _, h.done, runItem_of_rejected hd, runItem_of_rejected (hunread.symm ▸ hd)⟩
    · obtain ⟨s', hs, heqs⟩ := runItem_cutShort hd
      obtain ⟨t', ht, heqt⟩ := runItem_cutShort (hunread.symm ▸ hd)
      exact ⟨s', t', h.cutShort hs ht, heqs, heqt⟩

/-! ### The whole decode -/

/-- The second outcome answers at the same point of the decode where the first one answers. -/
def AnswersAlike (o o' : Host.Outcome State Fault Refusal) : Prop :=
  ∀ s, o = .next s → ∃ t, o' = .next t ∧ SameDecode s t

theorem SameDecode.commit {s t : State} (h : SameDecode s t) : AnswersAlike s.commit t.commit := by
  intro u hu
  obtain ⟨rfl, hpos, hcursor⟩ := (State.commit_eq_next_iff s u).1 hu
  exact ⟨t, t.commit_of_lt (h.pos ▸ hpos) (h.cursor ▸ hcursor), h⟩

theorem SameDecode.advance {s t : State} (h : SameDecode s t) :
    AnswersAlike (Machine.advance s) (Machine.advance t) := by
  rcases h.pastHeader with ⟨hsub, -⟩ | hbusy
  · obtain ⟨s', t', hnext, heqs, heqt⟩ := h.runItem hsub
    rw [advance_of_op hsub, advance_of_op (h.sub.trans hsub), heqs, heqt]
    exact hnext.commit
  · have hbusy' : t.busy = false := by rwa [State.busy, State.state, h.sub]
    rw [advance_of_not_busy hbusy, advance_of_not_busy hbusy']
    rintro u ⟨⟩
    exact ⟨t, rfl, h⟩

theorem advanceFor_succ_eq_next {n : Nat} {s u : State} (h : advanceFor (n + 1) s = .next u) :
    ∃ v, advance s = .next v ∧ advanceFor n v = .next u := by
  rw [advanceFor] at h
  split at h
  next v hv => exact ⟨v, hv, h⟩
  next => cases h
  next => cases h

theorem AnswersAlike.advanceFor_succ {n : Nat} {s t : State} (hfirst : AnswersAlike (advance s) (advance t))
    (hrest : ∀ u v, SameDecode u v → AnswersAlike (advanceFor n u) (advanceFor n v)) :
    AnswersAlike (advanceFor (n + 1) s) (advanceFor (n + 1) t) := by
  intro w hw
  obtain ⟨u, hu, hw⟩ := advanceFor_succ_eq_next hw
  obtain ⟨v, hv, huv⟩ := hfirst u hu
  rw [advanceFor, hv]
  exact hrest u v huv w hw

theorem SameDecode.advanceFor (n : Nat) {s t : State} (h : SameDecode s t) :
    AnswersAlike (Machine.advanceFor n s) (Machine.advanceFor n t) := by
  induction n generalizing s t with
  | zero =>
    rintro u ⟨⟩
    exact ⟨t, rfl, h⟩
  | succ n ih => exact h.advance.advanceFor_succ fun _ _ => ih

/-- R120: HEADER meets the two machines as their resets left them, the steps after it as HEADER did. -/
theorem decodeStream_answersAlike (S : List Byte) (s₁ s₂ : State) :
    AnswersAlike (decodeStream S s₁) (decodeStream S s₂) := by
  have hheader (s : State) : advance (s.begins S) = runItem .header (s.begins S) := advance_of_headerStart rfl rfl
  obtain ⟨t₁, t₂, hnext, heq₁, heq₂⟩ := runItem_header_sameDecode S s₁ s₂
  have hfirst : AnswersAlike (advance (s₁.begins S)) (advance (s₂.begins S)) := by
    rw [hheader s₁, hheader s₂, heq₁, heq₂]
    exact hnext.commit
  exact hfirst.advanceFor_succ fun _ _ => SameDecode.advanceFor S.length

/-! ### The result -/

theorem portWhen_congr {α : Type} {c : Bool} {v v' : α} (h : c = true → v = v') : portWhen c v = portWhen c v' := by
  cases c with
  | false => rfl
  | true => rw [h rfl]

theorem SameDecode.short_eq {s t : State} (h : SameDecode s t) : t.short = s.short := by
  rw [State.short, State.short, h.hdrValid]
  cases hvalid : s.hdrValid with
  | false => rfl
  | true => rw [h.inside_eq hvalid]

theorem State.error_iff_sub (s : State) : s.error = true ↔ s.sub = .err := by
  rw [State.error_iff_state, State.state]
  cases s.sub <;> decide

theorem SameDecode.report_eq {s t : State} (h : SameDecode s t) : t.report = s.report := by
  have hstate : t.state = s.state := congrArg SubState.engine h.sub
  have herror : t.error = s.error := congrArg (· == EngineState.error) hstate
  have herrPos : portWhen s.error t.errPos = portWhen s.error s.errPos :=
    portWhen_congr fun herr => h.errPos (s.error_iff_sub.1 herr)
  have hheader : portWhen s.hdrValid t.hdr = portWhen s.hdrValid s.hdr := portWhen_congr h.hdr
  simp only [State.report, hstate, h.errCode, herror, herrPos, h.hdrValid, hheader, h.cursor, h.pos, h.short_eq,
    State.outWrites, h.trace]

theorem SameDecode.readOut_eq {s t : State} (h : SameDecode s t) (hvalid : s.hdrValid = true) (i : Nat) :
    t.readOut i = s.readOut i := by
  have hvalid' : t.hdrValid = true := h.hdrValid.trans hvalid
  have hsize := h.npix_eq hvalid
  by_cases hin : i < s.npix
  · by_cases hcursor : i < s.cursor
    · simp only [State.readOut, h.hdrValid, hsize, h.cursor, h.image hvalid i hcursor hin]
    · have hcursor := Nat.le_of_not_lt hcursor
      rw [State.readOut_of_cursor_le hvalid hcursor hin,
        State.readOut_of_cursor_le hvalid' (h.cursor.le.trans hcursor) (hsize ▸ hin)]
  · have hout := Nat.le_of_not_lt hin
    rw [State.readOut_of_npix_le hvalid hout, State.readOut_of_npix_le hvalid' (hsize.le.trans hout)]

/-- Settles O49: the two decodes end at one point, and the report and the image are read from what they share there. -/
theorem decodeDependsOnTheStreamOnly : Obligations.DecodeDependsOnTheStreamOnly := by
  unfold Obligations.DecodeDependsOnTheStreamOnly
  intro S s₁ s₂ t₁ h₁
  obtain ⟨t₂, h₂, h⟩ := decodeStream_answersAlike S s₁ s₂ t₁ h₁
  exact ⟨t₂, h₂, h.report_eq, h.prev, h.cache, h.readOut_eq⟩

end Sys2Proof.Machine
end
